-- ==== Sys2Proof/Word.lean ====
section
/-! DEFINITION. The value types of the block: bytes, 7-bit and 14-bit data, channels (rules R9, R10). -/

namespace Sys2Proof

/-- An 8-bit buffer element or message byte (R51: an 8-bit container, so bit 7 can be set). -/
abbrev Byte := BitVec 8

/-- A 7-bit data value, 0..127 (R9). -/
abbrev Data7 := BitVec 7

/-- A 14-bit NRPN parameter number or value, 0..16383 (R9). -/
abbrev Data14 := BitVec 14

/-- A channel, 0..15 (R9). -/
abbrev Channel := BitVec 4

/-- A control word of format `CTL32` (R77). -/
abbrev CtlWord := BitVec 32

/-- The `CAP` field of a control word, 0..65535 (R77). -/
abbrev Capacity := BitVec 16

end Sys2Proof
end

