-- ==== Sys2Proof/Config.lean ====
section
/-! DEFINITION. The configuration registers (rules R8, R26), the values the spec leaves OPEN, and the free
draw of diagnostic delivery (R208). -/

namespace Sys2Proof

/-- The configuration registers of R26. Every value of this type is a legal configuration, and every legal one
is a value of it: `P >= 1` because the prefix has a first byte, `MAX_SYSEX_LEN >= P + 1` because the register is
`P + 1` plus a number (log entry 5). The registers under the spec's own names are the accessors below. -/
structure Cfg where
  /-- `CFG.NRPN_PER_CHANNEL` (R24, R26). -/
  nrpnPerChannel : Bool
  /-- `MFR_ID[0]` (R26). -/
  mfrHead : Data7
  /-- `MFR_ID[1 .. P)` (R26). -/
  mfrTail : List Data7
  /-- `CFG.CMDS`: bit `b` says that command byte `b` has a handler (R26). -/
  cmds : BitVec 128
  /-- `MAX_SYSEX_LEN - (P + 1)` (R26). -/
  lenSlack : Nat
  /-- `CFG.DECODE_CAPACITY` (R26). -/
  decodeCapacity : Nat
deriving DecidableEq, Repr

/-- `MFR_ID`, the manufacturer-ID prefix (R26). -/
def Cfg.mfrId (c : Cfg) : List Data7 := c.mfrHead :: c.mfrTail

/-- `P`, the length of `MFR_ID` (R8, R26). -/
def Cfg.prefixLen (c : Cfg) : Nat := c.mfrTail.length + 1

/-- `MAX_SYSEX_LEN` (R8, R26). -/
def Cfg.maxSysexLen (c : Cfg) : Nat := c.prefixLen + 1 + c.lenSlack

/-- Membership of a command byte in `CMDS` (R26: one membership bit per command byte). -/
def Cfg.hasCmd (c : Cfg) (cmd : Data7) : Bool := c.cmds.getLsbD cmd.toNat

/-- `CHANNELS` (R8). -/
def Config.channels : Nat := 16

/-- `GROUP`, the data bytes of one codec group (R8). -/
def Config.group : Nat := 7

/-- OPEN (R8): the first byte of `MFR_ID` in the block as built. DESIGN CHOICE (log entry 4, safe). -/
opaque Config.mfrHead : Data7

/-- OPEN (R8): the other bytes of `MFR_ID` in the block as built. DESIGN CHOICE (log entry 4, safe). -/
opaque Config.mfrTail : List Data7

/-- OPEN (R8): `CMDS` in the block as built. DESIGN CHOICE (log entry 4, safe). -/
opaque Config.cmds : BitVec 128

/-- OPEN (R8): `MAX_SYSEX_LEN` less `P + 1` in the block as built. DESIGN CHOICE (log entry 4, safe). -/
opaque Config.lenSlack : Nat

/-- OPEN (R8): `DECODE_CAPACITY` in the block as built. DESIGN CHOICE (log entry 4, safe). -/
opaque Config.decodeCapacity : Nat

/-- The configuration the block is built with: the OPEN parameters uninterpreted, `NRPN_PER_CHANNEL` at the
spec's default 1 (R26; log entry 6). -/
def Config.built : Cfg where
  nrpnPerChannel := true
  mfrHead := Config.mfrHead
  mfrTail := Config.mfrTail
  cmds := Config.cmds
  lenSlack := Config.lenSlack
  decodeCapacity := Config.decodeCapacity

/-- The free draw of R208: whether the `n`-th offered diagnostic record is delivered. DESIGN CHOICE for its form
(log entry 3, safe). -/
opaque Config.freeDiagDelivered : Nat → Bool

end Sys2Proof
end

