-- ==== Sys2Proof/Syntax.lean ====
section
/-! DEFINITION. The operations of the block, one constructor per row of spec/opcode_table.json (R85), and the
messages its input ports carry (R70, R71, R75, R77). -/

namespace Sys2Proof

/-- One operation of the block (R85). Operands are carried as the port presents them: data bytes are 8-bit, so
that an out-of-range one can be presented and refused (R71, R80). -/
inductive Instr where
  /-- NOTE_OFF (R175): channel, `D1` the pitch, `D2` the velocity. -/
  | noteOff (ch : Channel) (d1 d2 : Byte)
  /-- NOTE_ON_VEL0 (R177): channel, `D1` the pitch; `D2` is `0x00`. -/
  | noteOnVel0 (ch : Channel) (d1 : Byte)
  /-- NOTE_ON (R176): channel, `D1` the pitch, `D2` the velocity, not `0x00`. -/
  | noteOn (ch : Channel) (d1 d2 : Byte)
  /-- CC_NRPN_ID_MSB (R140): channel, `D2` the value; the controller is 99. -/
  | ccNrpnIdMsb (ch : Channel) (d2 : Byte)
  /-- CC_NRPN_ID_LSB (R141): channel, `D2` the value; the controller is 98. -/
  | ccNrpnIdLsb (ch : Channel) (d2 : Byte)
  /-- CC_DATA_ENTRY_MSB (R142): channel, `D2` the value; the controller is 6. -/
  | ccDataEntryMsb (ch : Channel) (d2 : Byte)
  /-- CC_DATA_ENTRY_LSB (R143): channel, `D2` the value; the controller is 38. -/
  | ccDataEntryLsb (ch : Channel) (d2 : Byte)
  /-- CC_GENERIC (R180): channel, `D1` the controller, `D2` the value. -/
  | ccGeneric (ch : Channel) (d1 d2 : Byte)
  /-- SYSEX (R185): the frame `F`; its length `L` is the list's. -/
  | sysex (frame : List Byte)
  /-- UNSUPPORTED (R181): the status byte "and whatever follows" (log entry 12). -/
  | unsupported (status d1 d2 : Byte)
  /-- BEGIN (R200). -/
  | begin
  /-- CODEC_DECODE (R110): `CAP` and the packed input `I`. -/
  | codecDecode (cap : Capacity) (input : List Byte)
  /-- CODEC_ENCODE (R111): `CAP` and the unpacked input `I`. -/
  | codecEncode (cap : Capacity) (input : List Byte)
  /-- UNSUPPORTED_CTL (R205): the word and `I` (log entry 12). -/
  | unsupportedCtl (word : CtlWord) (input : List Byte)
deriving DecidableEq, Repr

/-- What `EVT_IN` carries (R70, R83): a channel-voice message in format `CV24` (R71) or a SysEx message in format
`SX` (R75), whose frame excludes the bytes `0xF0` and `0xF7`. -/
inductive EvtMsg where
  | cv24 (S D1 D2 : Byte)
  | sx (F : List Byte)
deriving DecidableEq, Repr

/-- One operation as an input port presents it (R70): a message on `EVT_IN`, or a `CTL32` word with its byte
sequence `I` on `CTL_IN` (R77). -/
inductive PortOp where
  | evt (m : EvtMsg)
  | ctl (word : CtlWord) (I : List Byte)
deriving DecidableEq, Repr

/-- One element of a run (R281): an operation on a port, or the `RESET` signal, which joins the same order
(R262). -/
inductive Input where
  | op (p : PortOp)
  | reset
deriving DecidableEq, Repr

/-- The operations of `EVT_IN`, by name: the `op` field of a diagnostic record (R207). -/
inductive EvtOpName where
  | noteOff | noteOnVel0 | noteOn
  | ccNrpnIdMsb | ccNrpnIdLsb | ccDataEntryMsb | ccDataEntryLsb | ccGeneric
  | sysex | unsupported
deriving DecidableEq, Repr

end Sys2Proof
end

