-- ==== Sys2Proof/Machine/State.lean ====
section
/-! DEFINITION. The state of the block (R22 to R34), the records its output ports carry (R70, R78, R79, R207,
R221), and the state after reset (R31). -/

namespace Sys2Proof.Machine

/-! ## Statuses and output records -/

/-- The status an operation returns (R221). The codes are `Status.code`. -/
inductive Status where
  | ok
  | nrpnPending
  | nrpnIgnored
  | malformedByte
  | bufferOverflow
  | unrecognizedSysexCommand
  | sysexTooShort
  | sysexTooLong
  | sysexForeign
  | unsupportedEvent
  | notReady
  | nrpnDiscarded
deriving DecidableEq, Repr

/-- An application event on `EVT_OUT` (R79). -/
inductive AppEvent where
  | noteOn (channel : Channel) (pitch velocity : Data7)
  | noteOff (channel : Channel) (pitch velocity : Data7)
  | controlChange (channel : Channel) (controller value : Data7)
  | nrpnParameterChange (channel : Channel) (parameterNumber value : Data14)
  | sysExCommand (command : Data7) (payload : List Byte)
  | unrecognizedSysExCommand (command : Data7)
deriving DecidableEq, Repr

/-- A diagnostic record (R207). -/
structure DiagRecord where
  op : EvtOpName
  S : Byte
  D1 : Option Byte
  D2 : Option Byte
  L : Option Nat
  cmd : Option Data7
  status : Status
deriving DecidableEq, Repr

/-- A diagnostic record offered to `DIAG_OUT`, and whether it was delivered or lost (R208). -/
structure DiagOffer where
  record : DiagRecord
  delivered : Bool
deriving DecidableEq, Repr

/-- What one operation presents (R61, R70): on the event port one status, at most one application event and at
most one offered diagnostic record, in no order among themselves; on the control port one response (R78). -/
inductive OpOutput where
  | evt (status : Status) (event : Option AppEvent) (diag : Option DiagOffer)
  | ctl (status : Status) (out : List Byte)
deriving DecidableEq, Repr

/-! ## The NRPN bank -/

/-- An NRPN field set (R22, R23): four optional 7-bit fields, `none` being "unset". -/
structure NrpnFields where
  identifierMsb : Option Data7
  identifierLsb : Option Data7
  valueMsb : Option Data7
  valueLsb : Option Data7
deriving DecidableEq, Repr

/-- A field set with every field unset: its reset value (R31), the phase `Idle` (R131). -/
def NrpnFields.idle : NrpnFields := ⟨none, none, none, none⟩

/-- The NRPN bank (R22, R24, R30): 16 sets, one per channel, or one set shared by all channels. Its shape agrees
with `CFG.NRPN_PER_CHANNEL` in every state a run reaches (`State.bankFits`; log entry 7). -/
inductive NrpnBank where
  | perChannel (sets : Vector NrpnFields 16)
  | shared (fields : NrpnFields)
deriving DecidableEq, Repr

/-- The bank after reset (R31, R260), in the shape the configuration gives it (R22). -/
def NrpnBank.idle (perChannel : Bool) : NrpnBank :=
  if perChannel then .perChannel (Vector.replicate 16 NrpnFields.idle) else .shared NrpnFields.idle

/-! ## The state -/

/-- The state: the block's own (`wired`, `nrpn`: R22), its configuration registers (R26), and four fields of the
model that show one deterministic step what the spec puts at the ports (log entries 1, 2, 3, 8). -/
structure State where
  /-- 1 once BEGIN has been performed since the last reset (R27). -/
  wired : Bool
  /-- The NRPN field bank (R22 to R24, R30). -/
  nrpn : NrpnBank
  /-- The configuration registers (R26): no operation writes them, and RESET does not either. -/
  cfg : Cfg
  /-- MODEL'S OWN: what is presented and not yet accepted, in acceptance order (R60, R262, R281). -/
  inputs : List Input
  /-- MODEL'S OWN: what the operations performed so far presented, oldest first (R61, R281). -/
  outputs : List OpOutput
  /-- The operation index of R21, which is not state of the block and which no operation reads. -/
  opIndex : Nat
  /-- MODEL'S OWN: how many diagnostic records have been offered: the index of the next free draw (R208). -/
  diagDraws : Nat
deriving DecidableEq, Repr

/-- The reasons a step can stop with a fault. The block never traps, halts or aborts (R220). -/
inductive Fault where
  /-- `FrameRead(i)` with `i >= L`: "a fault of the model, not a behaviour of the block" (R53). Raised by SYSEX if
  it read past its frame; no state and no frame makes it do so (an obligation states this). Safe. -/
  | frameReadOutOfRange
deriving DecidableEq, Repr

/-- The reasons a step can refuse. No arm of `exec` refuses. -/
inductive Refusal where
  /-- An operation that `exec` gives no meaning yet, by its mnemonic. Raised by no arm. Safe. -/
  | notModelled (mnemonic : String)
deriving DecidableEq, Repr

/-- The state right after reset (R31, R260): not wired, every field unset, the configuration as built, operation
index 0; nothing presented and nothing output yet. -/
def State.reset : State where
  wired := false
  nrpn := NrpnBank.idle Config.built.nrpnPerChannel
  cfg := Config.built
  inputs := []
  outputs := []
  opIndex := 0
  diagDraws := 0

end Sys2Proof.Machine
end

