-- ==== Sys2Proof/Machine/Flags.lean ====
section
/-! DEFINITION. The block has no flags and no condition codes (R28). What stands here is what the spec derives or
encodes instead: the NRPN phase (R131), the physical form of a field (R25), the status codes (R221) and the event
kinds (R79). -/

namespace Sys2Proof.Machine

/-- The phases of the NRPN state machine (R15, R131). -/
inductive Phase where
  | idle
  | identifierPartial
  | identifierComplete
  | valuePartial
  | complete
deriving DecidableEq, Repr

/-- `#id` of R131: how many identifier fields are set. -/
def NrpnFields.idCount (f : NrpnFields) : Nat :=
  f.identifierMsb.isSome.toNat + f.identifierLsb.isSome.toNat

/-- `#val` of R131: how many value fields are set. -/
def NrpnFields.valCount (f : NrpnFields) : Nat :=
  f.valueMsb.isSome.toNat + f.valueLsb.isSome.toNat

/-- The phase of a field set, the table of R131; `none` for contents the table does not list (`#id < 2` with
`#val > 0`, R132). -/
def NrpnFields.phase (f : NrpnFields) : Option Phase :=
  match f.idCount, f.valCount with
  | 0, 0 => some .idle
  | 1, 0 => some .identifierPartial
  | 2, 0 => some .identifierComplete
  | 2, 1 => some .valuePartial
  | 2, 2 => some .complete
  | _, _ => none

/-- How a field is held in a physical 8-bit register (R25): `0xFF` for "unset", else the value. No port can
observe it (R25, R30). -/
def physicalField : Option Data7 → Byte
  | none => 0xFF#8
  | some v => v.setWidth 8

/-- The status codes (R221). -/
def Status.code : Status → Byte
  | .ok => 0x00#8
  | .nrpnPending => 0x01#8
  | .nrpnIgnored => 0x02#8
  | .malformedByte => 0x03#8
  | .bufferOverflow => 0x04#8
  | .unrecognizedSysexCommand => 0x05#8
  | .sysexTooShort => 0x06#8
  | .sysexTooLong => 0x07#8
  | .sysexForeign => 0x08#8
  | .unsupportedEvent => 0x09#8
  | .notReady => 0x0A#8
  | .nrpnDiscarded => 0x0B#8

/-- The kind numbers of application events (R79). -/
def AppEvent.kind : AppEvent → Nat
  | .noteOn _ _ _ => 0
  | .noteOff _ _ _ => 1
  | .controlChange _ _ _ => 2
  | .nrpnParameterChange _ _ _ => 3
  | .sysExCommand _ _ => 4
  | .unrecognizedSysExCommand _ => 5

end Sys2Proof.Machine
end

