-- ==== Sys2Proof/WellFormed.lean ====
section
/-! DEFINITION. Which terms of `Instr` stand for an encoding: the side conditions of the decode rows (R74, R81,
R83, R84, R180). -/

namespace Sys2Proof

/-- The status-byte kinds that are not reserved: Note Off, Note On, Control Change (R72). -/
def kindSupported (S : Byte) : Bool :=
  S.extractLsb' 4 4 = 0x8#4 || S.extractLsb' 4 4 = 0x9#4 || S.extractLsb' 4 4 = 0xB#4

/-- The NRPN-control controller numbers, exactly {99, 98, 6, 38} (R73, R136). -/
def nrpnController (d1 : Byte) : Bool :=
  d1 = 0x63#8 || d1 = 0x62#8 || d1 = 0x06#8 || d1 = 0x26#8

/-- A control word that the rows BEGIN, CODEC_DECODE and CODEC_ENCODE do not match (R81, R84). -/
def ctlReserved (word : CtlWord) (I : List Byte) : Bool :=
  word.extractLsb' 16 8 != 0x00#8 ||
    !((word.extractLsb' 24 8 = 0x01#8 && word.extractLsb' 0 16 = 0#16 && I.isEmpty) ||
      word.extractLsb' 24 8 = 0x02#8 || word.extractLsb' 24 8 = 0x03#8)

/-- An operation is well formed when some encoding decodes to it: a NOTE_ON has a non-zero `D2` (R74), a
CC_GENERIC a controller outside {99, 98, 6, 38} (R180), an UNSUPPORTED a reserved status byte (R181), and an
UNSUPPORTED_CTL a reserved control word (R205). -/
def Instr.wf : Instr → Bool
  | .noteOff _ _ _ => true
  | .noteOnVel0 _ _ => true
  | .noteOn _ _ d2 => d2 != 0x00#8
  | .ccNrpnIdMsb _ _ => true
  | .ccNrpnIdLsb _ _ => true
  | .ccDataEntryMsb _ _ => true
  | .ccDataEntryLsb _ _ => true
  | .ccGeneric _ d1 _ => !nrpnController d1
  | .sysex _ => true
  | .unsupported S _ _ => !kindSupported S
  | .begin => true
  | .codecDecode _ _ => true
  | .codecEncode _ _ => true
  | .unsupportedCtl w I => ctlReserved w I

end Sys2Proof
end

