-- ==== Sys2Proof/Decode.lean ====
section
/-! DEFINITION. Decoding and encoding (R71 to R77, R80 to R85): the two total decoders, the encoder, and the byte
forms of a message. -/

namespace Sys2Proof

/-! ## Fields (R71, R77, R80) -/

/-- `KIND`, bits `[7:4]` of a status byte (R71). -/
def statusKind (S : Byte) : BitVec 4 := S.extractLsb' 4 4

/-- `CH`, bits `[3:0]` of a status byte (R71, R80). -/
def statusChannel (S : Byte) : Channel := S.extractLsb' 0 4

/-- The status byte of a kind and a channel (R71). -/
def statusByte (kind : BitVec 4) (c : Channel) : Byte := kind ++ c

/-- `OPC`, bits `[31:24]` of a control word (R77). -/
def ctlOpc (w : CtlWord) : Byte := w.extractLsb' 24 8

/-- `RSV`, bits `[23:16]` of a control word (R77). -/
def ctlRsv (w : CtlWord) : Byte := w.extractLsb' 16 8

/-- `CAP`, bits `[15:0]` of a control word (R77, R80). -/
def ctlCap (w : CtlWord) : Capacity := w.extractLsb' 0 16

/-- A control word from its three fields (R77). -/
def ctlWord (opc rsv : Byte) (cap : Capacity) : CtlWord := opc ++ rsv ++ cap

/-! ## Decoders (R83, R84) -/

/-- The decoder of `CV24` messages: the match of R83, the four NRPN controllers before CC_GENERIC and
NOTE_ON_VEL0 before NOTE_ON. Data bytes are not checked here (R82, R171). -/
def decodeCv24 (S D1 D2 : Byte) : Instr :=
  if statusKind S = 0x8#4 then .noteOff (statusChannel S) D1 D2
  else if statusKind S = 0x9#4 then
    if D2 = 0x00#8 then .noteOnVel0 (statusChannel S) D1
    else .noteOn (statusChannel S) D1 D2
  else if statusKind S = 0xB#4 then
    if D1 = 0x63#8 then .ccNrpnIdMsb (statusChannel S) D2
    else if D1 = 0x62#8 then .ccNrpnIdLsb (statusChannel S) D2
    else if D1 = 0x06#8 then .ccDataEntryMsb (statusChannel S) D2
    else if D1 = 0x26#8 then .ccDataEntryLsb (statusChannel S) D2
    else .ccGeneric (statusChannel S) D1 D2
  else .unsupported S D1 D2

/-- `decodeEvt` of R83, total on every `EVT_IN` message. -/
def decodeEvt : EvtMsg → Instr
  | .sx F => .sysex F
  | .cv24 S D1 D2 => decodeCv24 S D1 D2

/-- `decodeCtl` of R84, total on every control word and byte sequence. -/
def decodeCtl (w : CtlWord) (I : List Byte) : Instr :=
  if ctlRsv w ≠ 0x00#8 then .unsupportedCtl w I
  else if ctlOpc w = 0x01#8 then
    if ctlCap w = 0#16 ∧ I = [] then .begin else .unsupportedCtl w I
  else if ctlOpc w = 0x02#8 then .codecDecode (ctlCap w) I
  else if ctlOpc w = 0x03#8 then .codecEncode (ctlCap w) I
  else .unsupportedCtl w I

/-- The operation that a port presents. Total: what no row matches is one of the two refusals, by name (R81). -/
def decode : PortOp → Instr
  | .evt m => decodeEvt m
  | .ctl w I => decodeCtl w I

/-! ## Encoder (R71 to R77, R86) -/

/-- The encoding of an operation, from the same tables (R71 to R77, R85). -/
def encode : Instr → PortOp
  | .noteOff c d1 d2 => .evt (.cv24 (statusByte 0x8#4 c) d1 d2)
  | .noteOnVel0 c d1 => .evt (.cv24 (statusByte 0x9#4 c) d1 0x00#8)
  | .noteOn c d1 d2 => .evt (.cv24 (statusByte 0x9#4 c) d1 d2)
  | .ccNrpnIdMsb c d2 => .evt (.cv24 (statusByte 0xB#4 c) 0x63#8 d2)
  | .ccNrpnIdLsb c d2 => .evt (.cv24 (statusByte 0xB#4 c) 0x62#8 d2)
  | .ccDataEntryMsb c d2 => .evt (.cv24 (statusByte 0xB#4 c) 0x06#8 d2)
  | .ccDataEntryLsb c d2 => .evt (.cv24 (statusByte 0xB#4 c) 0x26#8 d2)
  | .ccGeneric c d1 d2 => .evt (.cv24 (statusByte 0xB#4 c) d1 d2)
  | .sysex F => .evt (.sx F)
  | .unsupported S d1 d2 => .evt (.cv24 S d1 d2)
  | .begin => .ctl (ctlWord 0x01#8 0x00#8 0#16) []
  | .codecDecode cap I => .ctl (ctlWord 0x02#8 0x00#8 cap) I
  | .codecEncode cap I => .ctl (ctlWord 0x03#8 0x00#8 cap) I
  | .unsupportedCtl w I => .ctl w I

/-- The operations presented on `EVT_IN`; the others are presented on `CTL_IN` (R70, R85). -/
def Instr.onEvtPort : Instr → Bool
  | .noteOff _ _ _ => true
  | .noteOnVel0 _ _ => true
  | .noteOn _ _ _ => true
  | .ccNrpnIdMsb _ _ => true
  | .ccNrpnIdLsb _ _ => true
  | .ccDataEntryMsb _ _ => true
  | .ccDataEntryLsb _ _ => true
  | .ccGeneric _ _ _ => true
  | .sysex _ => true
  | .unsupported _ _ _ => true
  | .begin => false
  | .codecDecode _ _ => false
  | .codecEncode _ _ => false
  | .unsupportedCtl _ _ => false

/-! ## Byte forms (R55, R75, R76) -/

/-- Why a byte sequence is no `EVT_IN` message (R76). -/
inductive MsgReject where
  /-- No status byte. -/
  | empty
  /-- A status byte other than `0xF0` that is not followed by exactly two data bytes. -/
  | notThreeBytes
deriving DecidableEq, Repr

/-- A message in its wire order (R55): `S`, `D1`, `D2`, or `0xF0` and the frame. -/
def EvtMsg.bytes : EvtMsg → List Byte
  | .cv24 S D1 D2 => [S, D1, D2]
  | .sx F => 0xF0#8 :: F

/-- The message of a byte sequence, its form told from the first byte (R76): `0xF0` is `SX`, whose frame is the
rest; any other status byte is `CV24`, three bytes. -/
def evtMsgOfBytes : List Byte → Except MsgReject EvtMsg
  | [] => .error .empty
  | S :: rest =>
    if S = 0xF0#8 then .ok (.sx rest)
    else match rest with
      | [D1, D2] => .ok (.cv24 S D1 D2)
      | _ => .error .notThreeBytes

/-- A control word as bytes, bits `[31:24]` first (R55). -/
def ctlWordBytes (w : CtlWord) : List Byte :=
  [w.extractLsb' 24 8, w.extractLsb' 16 8, w.extractLsb' 8 8, w.extractLsb' 0 8]

/-- The control word of four bytes, bits `[31:24]` first (R55). -/
def ctlWordOfBytes (b3 b2 b1 b0 : Byte) : CtlWord := b3 ++ b2 ++ b1 ++ b0

/-- The bytes of an operation's own encoding: the message, or the control word without `I`, which is carried
beside it (R76, R77). -/
def PortOp.headBytes : PortOp → List Byte
  | .evt m => m.bytes
  | .ctl w _ => ctlWordBytes w

/-- How many bytes an operation's own encoding has: 3 for `CV24`, `1 + L` for `SX`, 4 for `CTL32` (R76, R77). -/
def Instr.headLength : Instr → Nat
  | .noteOff _ _ _ => 3
  | .noteOnVel0 _ _ => 3
  | .noteOn _ _ _ => 3
  | .ccNrpnIdMsb _ _ => 3
  | .ccNrpnIdLsb _ _ => 3
  | .ccDataEntryMsb _ _ => 3
  | .ccDataEntryLsb _ _ => 3
  | .ccGeneric _ _ _ => 3
  | .sysex F => 1 + F.length
  | .unsupported _ _ _ => 3
  | .begin => 4
  | .codecDecode _ _ => 4
  | .codecEncode _ _ => 4
  | .unsupportedCtl _ _ => 4

/-! ## The opcode table's numbering -/

/-- The port operation whose bits the opcode table numbers `w`, in the table's own reading (log entry 11): up to
8 bits are the status byte of a message with nothing but zeros after it, up to 24 bits a `CV24` value
`S<<16 | D1<<8 | D2`, up to 32 bits a control word with empty `I`. -/
def tablePortOp (nbits w : Nat) : Option PortOp :=
  if nbits ≤ 8 then
    if BitVec.ofNat 8 w = 0xF0#8 then some (.evt (.sx []))
    else some (.evt (.cv24 (BitVec.ofNat 8 w) 0 0))
  else if nbits ≤ 24 then
    some (.evt (.cv24 (BitVec.ofNat 8 (w >>> 16)) (BitVec.ofNat 8 (w >>> 8)) (BitVec.ofNat 8 w)))
  else if nbits ≤ 32 then some (.ctl (BitVec.ofNat 32 w) [])
  else none

/-- The operation this decoder reads from the table's word `w` of `nbits` bits. -/
def decodeTableWord (nbits w : Nat) : Option Instr :=
  (tablePortOp nbits w).map decode

end Sys2Proof
end

