-- ==== Sys2Proof/Machine/Operands.lean ====
section
/-! DEFINITION. Operand assembly (R80), the 14-bit merge (R135), FrameRead (R53), and the configuration check of
R26. -/

namespace Sys2Proof.Machine

/-- Bit 7 of a data byte is set: it is not a 7-bit value (R51, R80). -/
def highByte (b : Byte) : Bool := b.msb

/-- The 7-bit operand of a data byte: pitch, velocity, controller or value (R80). It is the byte's value when bit 7
is clear, which the prologue has checked (R171). -/
def data7 (b : Byte) : Data7 := b.setWidth 7

/-- The capacity operand as a number: `CAP` zero-extended (R17, R80). -/
def capValue (cap : Capacity) : Nat := cap.toNat

/-- The 14-bit merge (R135): MSB half, LSB half. The guard is the document's; 7-bit halves always pass it. -/
def merge14 (msb lsb : Nat) : Option Data14 :=
  if msb ≤ 127 ∧ lsb ≤ 127 then some (BitVec.ofNat 14 ((msb <<< 7) ||| lsb)) else none

/-- `FrameRead(i)` (R53): byte `i` of a frame, and nothing for an index outside it. -/
def frameRead (F : List Byte) (i : Nat) : Option Byte := F[i]?

/-- The elements `i .. j-1` of a sequence (R11). -/
def slice (l : List Byte) (i j : Nat) : List Byte := (l.drop i).take (j - i)

/-- The configuration registers as a host would set them, field by field (R26): legal or not. -/
structure RawCfg where
  nrpnPerChannel : Bool
  mfrId : List Data7
  cmds : BitVec 128
  maxSysexLen : Nat
  decodeCapacity : Nat
deriving DecidableEq, Repr

/-- The "legal values" of R26: `P >= 1` and `MAX_SYSEX_LEN >= P + 1`. -/
def RawCfg.legal (r : RawCfg) : Bool :=
  decide (1 ≤ r.mfrId.length) && decide (r.mfrId.length + 1 ≤ r.maxSysexLen)

/-- The configuration a host sets before reset (R264, R265). An illegal one "is not a configuration of this block";
it is refused rather than given a meaning (R26). -/
def RawCfg.configure (r : RawCfg) : Option Cfg :=
  match r.mfrId with
  | [] => none
  | h :: t =>
    if t.length + 2 ≤ r.maxSysexLen then
      some { nrpnPerChannel := r.nrpnPerChannel, mfrHead := h, mfrTail := t, cmds := r.cmds,
             lenSlack := r.maxSysexLen - (t.length + 2), decodeCapacity := r.decodeCapacity }
    else none

end Sys2Proof.Machine
end

