-- ==== Sys2Proof/Machine/Ops.lean ====
section
/-! DEFINITION. The shared operations over State: the NRPN bank (R23, R24), presenting outputs (R61, R172, R207,
R208), the event-port prologue (R171), acceptance (R60) and the RESET signal (R260).

The block takes no exception: it has no trap entry and no return (R220, R227, R228). What a `raise` of the
pseudocode means here is "end the operation with the status of that name" (R12, R222), which is
`State.endEvt` and `State.endCtl`. There is no addressable memory (R50), so no memory operation. -/

namespace Sys2Proof.Machine

/-- What a meaning answers. -/
abbrev Result := Host.Outcome State Fault Refusal

/-! ## The NRPN bank (R24) -/

/-- `nrpn[c]`, read (R12, R24): channel `c`'s own set, or the one shared set. -/
def NrpnBank.get : NrpnBank → Channel → NrpnFields
  | .perChannel v, c => v[c.toNat]'(c.isLt)
  | .shared f, _ => f

/-- `nrpn[c]`, written (R12, R24). -/
def NrpnBank.set : NrpnBank → Channel → NrpnFields → NrpnBank
  | .perChannel v, c, f => .perChannel (v.set c.toNat f c.isLt)
  | .shared _, _, f => .shared f

/-- The bank holds one set per channel. -/
def NrpnBank.isPerChannel : NrpnBank → Bool
  | .perChannel _ => true
  | .shared _ => false

/-- Every set the bank holds (R30). -/
def NrpnBank.sets : NrpnBank → List NrpnFields
  | .perChannel v => v.toList
  | .shared f => [f]

/-! ## Presenting outputs -/

/-- Present an operation's status and event on the event port, and offer its diagnostic record if it has one; an
offered record is delivered or lost by a free draw, on which nothing else depends (R61, R172, R207, R208). -/
def State.endEvt (s : State) (st : Status) (ev : Option AppEvent) (rec : Option DiagRecord) : State :=
  match rec with
  | none => { s with outputs := s.outputs ++ [.evt st ev none] }
  | some r =>
    { s with
      outputs := s.outputs ++ [.evt st ev (some ⟨r, Config.freeDiagDelivered s.diagDraws⟩)]
      diagDraws := s.diagDraws + 1 }

/-- Present an operation's response on the control port (R78). -/
def State.endCtl (s : State) (st : Status) (out : List Byte) : State :=
  { s with outputs := s.outputs ++ [.ctl st out] }

/-- The diagnostic record of a `CV24` operation (R207). -/
def cvRecord (op : EvtOpName) (S d1 d2 : Byte) (st : Status) : DiagRecord :=
  { op := op, S := S, D1 := some d1, D2 := some d2, L := none, cmd := none, status := st }

/-- The diagnostic record of UNSUPPORTED, which carries `S` only (R181, R207). -/
def unsupportedRecord (S : Byte) : DiagRecord :=
  { op := .unsupported, S := S, D1 := none, D2 := none, L := none, cmd := none, status := .unsupportedEvent }

/-- The diagnostic record of SYSEX: `S = 0xF0`, `L`, and `cmd` when the frame reached its command byte (R207). -/
def sysexRecord (L : Nat) (cmd : Option Data7) (st : Status) : DiagRecord :=
  { op := .sysex, S := 0xF0#8, D1 := none, D2 := none, L := some L, cmd := cmd, status := st }

/-! ## The event-port prologue (R171) -/

/-- The first line of the prologue, which every `EVT_IN` operation runs: not wired, so `NOT_READY` with no event
and no diagnostic record. `none` when the operation goes on. -/
def readyPrologue (s : State) : Option State :=
  if s.wired then none else some (s.endEvt .notReady none none)

/-- The whole prologue of a `CV24` operation other than UNSUPPORTED: `NOT_READY` first, then `MALFORMED_BYTE` with a
diagnostic record when a data byte has bit 7 set. `none` when the operation goes on. -/
def cv24Prologue (op : EvtOpName) (S d1 d2 : Byte) (s : State) : Option State :=
  match readyPrologue s with
  | some t => some t
  | none =>
    if highByte d1 || highByte d2 then
      some (s.endEvt .malformedByte none (some (cvRecord op S d1 d2 .malformedByte)))
    else none

/-- A `CV24` operation that, once past the prologue, changes no state and emits one event with status `OK`: the
shape of NOTE_OFF, NOTE_ON, NOTE_ON_VEL0 and CC_GENERIC (R175, R176, R177, R180). -/
def emitCv24 (op : EvtOpName) (S d1 d2 : Byte) (ev : AppEvent) (s : State) : Result :=
  match cv24Prologue op S d1 d2 s with
  | some t => .next t
  | none => .next (s.endEvt .ok (some ev) (some (cvRecord op S d1 d2 .ok)))

/-! ## Acceptance and RESET -/

/-- Accept the operation at the head of the inputs, leaving `rest` (R21, R60). -/
def State.accept (s : State) (rest : List Input) : State :=
  { s with inputs := rest, opIndex := s.opIndex + 1 }

/-- The RESET signal (R260): every piece of state to its reset value. The configuration is kept, no output is
presented, and what earlier operations presented stays (R260, R262). -/
def State.applyReset (s : State) : State :=
  { s with wired := false, nrpn := NrpnBank.idle s.cfg.nrpnPerChannel, opIndex := 0 }

end Sys2Proof.Machine
end

