-- ==== Sys2Proof/Machine/Codec.lean ====
section
/-! DEFINITION. The SevenBitCodec (R100 to R109, R112) and the operations CODEC_DECODE and CODEC_ENCODE (R110,
R111). -/

namespace Sys2Proof.Machine

/-- `ceil_div(a, b)` (R11). -/
def ceilDiv (a b : Nat) : Nat := (a + b - 1) / b

/-- `decLen(n)`, the decoded length of `n` packed bytes (R102). -/
def decLen (n : Nat) : Nat := n - ceilDiv n 8

/-- `encLen(m)`, the encoded length of `m` bytes (R103). -/
def encLen (m : Nat) : Nat := m + ceilDiv m 7

/-- The result of a codec function (R104, R105): the whole output, or a status and no output (R109). -/
inductive CodecResult where
  | ok (out : List Byte)
  | err (st : Status)
deriving DecidableEq, Repr

/-! ## Encode7 (R104) -/

/-- The header of a group whose first byte is data byte `k`: bit 7 of data byte `j` at header bit `j`. -/
def packHeader : Nat → List Byte → Byte
  | _, [] => 0#8
  | k, b :: rest => ((BitVec.ofBool b.msb).setWidth 8 <<< k) ||| packHeader (k + 1) rest

/-- A data byte with its high bit stripped. -/
def stripHigh (b : Byte) : Byte := b &&& 0x7F#8

/-- One group: the header byte, then the stripped data bytes. -/
def packGroup (chunk : List Byte) : List Byte :=
  packHeader 0 chunk :: chunk.map stripHigh

/-- The `for g` loop of R104 over `groups` groups, each of up to 7 input bytes. -/
def packGroups : Nat → List Byte → List Byte
  | 0, _ => []
  | g + 1, l => packGroup (l.take 7) ++ packGroups g (l.drop 7)

/-- `Encode7(in, cap)` (R104): fails for no reason but capacity, and then outputs nothing (R109). -/
def encode7 (inp : List Byte) (cap : Nat) : CodecResult :=
  if encLen inp.length > cap then .err .bufferOverflow
  else .ok (packGroups (ceilDiv inp.length 7) inp)

/-! ## Decode7 (R105) -/

/-- Data byte `k` of a group with its high bit restored from header bit `k` (R101, R105). -/
def restoreHigh (hdr : Byte) (k : Nat) (b : Byte) : Byte :=
  b ||| ((BitVec.ofBool (hdr.getLsbD k)).setWidth 8 <<< 7)

/-- The `while` loops of R105 in one pass: `hdr` is the header of the group being read and `k` the number of its
data bytes read so far. At `k = 7` the group is full and the next byte is a header, which outputs nothing. -/
def unpackLoop : Byte → Nat → List Byte → List Byte
  | _, _, [] => []
  | hdr, k, b :: rest =>
    if k = 7 then unpackLoop b 0 rest else restoreHigh hdr k b :: unpackLoop hdr (k + 1) rest

/-- `Decode7(in, cap)` (R105): the malformed check first (R108), then capacity, then the loop. A short last group
and a lone trailing header are valid (R106); header bits with no data byte are ignored (R107). -/
def decode7 (inp : List Byte) (cap : Nat) : CodecResult :=
  if inp.any highByte then .err .malformedByte
  else if decLen inp.length > cap then .err .bufferOverflow
  else .ok (unpackLoop 0#8 7 inp)

/-! ## The operations -/

/-- `CTL_OUT <- (OK, out)` or `CTL_OUT <- (st, [])` (R110, R111). -/
def State.respond (s : State) : CodecResult → State
  | .ok out => s.endCtl .ok out
  | .err st => s.endCtl st []

/-- CODEC_DECODE (R110). `wired` is not read. -/
def execCodecDecode (cap : Capacity) (input : List Byte) (s : State) : Result :=
  .next (s.respond (decode7 input (capValue cap)))

/-- CODEC_ENCODE (R111). `wired` is not read. -/
def execCodecEncode (cap : Capacity) (input : List Byte) (s : State) : Result :=
  .next (s.respond (encode7 input (capValue cap)))

end Sys2Proof.Machine
end

