-- ==== Sys2Proof/Machine/Control.lean ====
section
/-! DEFINITION. The control-port operations that are not the codec's: BEGIN (R200 to R202) and the refused control
word (R205). -/

namespace Sys2Proof.Machine

/-- BEGIN (R200): sets `wired`; the NRPN bank is not touched (R201). -/
def execBegin (s : State) : Result :=
  .next ({ s with wired := true }.endCtl .ok [])

/-- UNSUPPORTED_CTL (R205): no state change and no diagnostic record. -/
def execUnsupportedCtl (_word : CtlWord) (_input : List Byte) (s : State) : Result :=
  .next (s.endCtl .unsupportedEvent [])

end Sys2Proof.Machine
end

