-- ==== Sys2Proof/Machine/Nrpn.lean ====
section
/-! DEFINITION. The NrpnAssembler (R130 to R150): one field-set transition per NRPN controller, the assembler's
answer, and the four operations. -/

namespace Sys2Proof.Machine

/-- What an NRPN write does: the field set it leaves, its status and its event. -/
structure NrpnResult where
  fields : NrpnFields
  status : Status
  event : Option AppEvent
deriving DecidableEq, Repr

/-- `discard(f)` (R146): all four fields unset, no event. Unreachable (R135). -/
def nrpnDiscard : NrpnResult := ⟨NrpnFields.idle, .nrpnDiscarded, none⟩

/-- `tryComplete(f, c)` (R137): with all four fields set, emit the event and clear the value fields, keeping the
identifier. -/
def tryComplete (f : NrpnFields) (c : Channel) : NrpnResult :=
  match f.identifierMsb, f.identifierLsb, f.valueMsb, f.valueLsb with
  | some im, some il, some vm, some vl =>
    match merge14 im.toNat il.toNat, merge14 vm.toNat vl.toNat with
    | some p, some v =>
      ⟨{ f with valueMsb := none, valueLsb := none }, .ok, some (.nrpnParameterChange c p v)⟩
    | _, _ => nrpnDiscard
  | _, _, _, _ => ⟨f, .nrpnPending, none⟩

/-- CC 99: store the identifier MSB and drop a value in flight (R138, R140). -/
def writeIdMsb (f : NrpnFields) (v : Data7) : NrpnResult :=
  ⟨{ f with identifierMsb := some v, valueMsb := none, valueLsb := none }, .nrpnPending, none⟩

/-- CC 98: store the identifier LSB and drop a value in flight (R138, R141). -/
def writeIdLsb (f : NrpnFields) (v : Data7) : NrpnResult :=
  ⟨{ f with identifierLsb := some v, valueMsb := none, valueLsb := none }, .nrpnPending, none⟩

/-- CC 6: store the value MSB if the identifier is complete, then complete if it can (R142). -/
def writeValueMsb (f : NrpnFields) (c : Channel) (v : Data7) : NrpnResult :=
  if f.identifierMsb = none ∨ f.identifierLsb = none then ⟨f, .nrpnIgnored, none⟩
  else tryComplete { f with valueMsb := some v } c

/-- CC 38: store the value LSB if the identifier is complete, then complete if it can (R143). -/
def writeValueLsb (f : NrpnFields) (c : Channel) (v : Data7) : NrpnResult :=
  if f.identifierMsb = none ∨ f.identifierLsb = none then ⟨f, .nrpnIgnored, none⟩
  else tryComplete { f with valueLsb := some v } c

/-- The assembler's answer to a Control Change (R134). -/
inductive NrpnAnswer where
  /-- The controller is not in {99, 98, 6, 38}: not consumed. -/
  | notNrpn
  /-- Taken, and no event emitted. -/
  | consumed (st : Status)
  /-- The Control Change completed a transaction. -/
  | emitted (e : AppEvent)
deriving DecidableEq, Repr

/-- The answer that an NRPN write amounts to (R134). -/
def NrpnResult.answer (r : NrpnResult) : NrpnAnswer :=
  match r.event with
  | some e => .emitted e
  | none => .consumed r.status

/-- `onControlChange` of the assembler over the field set of the channel (R134, R136): its answer and the field
set it leaves. A controller that is not an NRPN control leaves the set alone. -/
def onControlChange (f : NrpnFields) (c : Channel) (controller value : Data7) : NrpnAnswer × NrpnFields :=
  if controller = 99#7 then ((writeIdMsb f value).answer, (writeIdMsb f value).fields)
  else if controller = 98#7 then ((writeIdLsb f value).answer, (writeIdLsb f value).fields)
  else if controller = 6#7 then ((writeValueMsb f c value).answer, (writeValueMsb f c value).fields)
  else if controller = 38#7 then ((writeValueLsb f c value).answer, (writeValueLsb f c value).fields)
  else (.notNrpn, f)

/-- End an NRPN operation on channel `c`: write `nrpn[c]`, and present the status, the event and the record. -/
def State.endNrpn (s : State) (op : EvtOpName) (c : Channel) (S d1 d2 : Byte) (r : NrpnResult) : State :=
  { s with nrpn := s.nrpn.set c r.fields }.endEvt r.status r.event (some (cvRecord op S d1 d2 r.status))

/-- An NRPN operation on channel `c`: past the prologue, `write` says what becomes of `nrpn[c]` and what the
operation answers (the shape of R140 to R143). -/
def nrpnCv24 (op : EvtOpName) (c : Channel) (d1 d2 : Byte) (write : NrpnFields → NrpnResult) (s : State) : Result :=
  match cv24Prologue op (statusByte 0xB#4 c) d1 d2 s with
  | some t => .next t
  | none => .next (s.endNrpn op c (statusByte 0xB#4 c) d1 d2 (write (s.nrpn.get c)))

/-- CC_NRPN_ID_MSB (R140). -/
def execCcNrpnIdMsb (c : Channel) (d2 : Byte) (s : State) : Result :=
  nrpnCv24 .ccNrpnIdMsb c 0x63#8 d2 (fun f => writeIdMsb f (data7 d2)) s

/-- CC_NRPN_ID_LSB (R141). -/
def execCcNrpnIdLsb (c : Channel) (d2 : Byte) (s : State) : Result :=
  nrpnCv24 .ccNrpnIdLsb c 0x62#8 d2 (fun f => writeIdLsb f (data7 d2)) s

/-- CC_DATA_ENTRY_MSB (R142). The event's channel is this operation's (R144). -/
def execCcDataEntryMsb (c : Channel) (d2 : Byte) (s : State) : Result :=
  nrpnCv24 .ccDataEntryMsb c 0x06#8 d2 (fun f => writeValueMsb f c (data7 d2)) s

/-- CC_DATA_ENTRY_LSB (R143). The event's channel is this operation's (R144). -/
def execCcDataEntryLsb (c : Channel) (d2 : Byte) (s : State) : Result :=
  nrpnCv24 .ccDataEntryLsb c 0x26#8 d2 (fun f => writeValueLsb f c (data7 d2)) s

end Sys2Proof.Machine
end

