-- ==== Sys2Proof/Machine/Events.lean ====
section
/-! DEFINITION. The dispatcher's note path, the generic Control Change path and the refused event (R170 to R181).
The decoder makes the assembler's answer by controller number: CC_GENERIC is exactly `NotNrpn` (R179). -/

namespace Sys2Proof.Machine

/-- NOTE_OFF (R175): every velocity is passed through. -/
def execNoteOff (c : Channel) (d1 d2 : Byte) (s : State) : Result :=
  emitCv24 .noteOff (statusByte 0x8#4 c) d1 d2 (.noteOff c (data7 d1) (data7 d2)) s

/-- NOTE_ON_VEL0 (R177): re-routed as a Note Off with velocity 0. -/
def execNoteOnVel0 (c : Channel) (d1 : Byte) (s : State) : Result :=
  emitCv24 .noteOnVel0 (statusByte 0x9#4 c) d1 0x00#8 (.noteOff c (data7 d1) 0#7) s

/-- NOTE_ON (R176). -/
def execNoteOn (c : Channel) (d1 d2 : Byte) (s : State) : Result :=
  emitCv24 .noteOn (statusByte 0x9#4 c) d1 d2 (.noteOn c (data7 d1) (data7 d2)) s

/-- CC_GENERIC (R180): forwarded; no NRPN field set is read or written. -/
def execCcGeneric (c : Channel) (d1 d2 : Byte) (s : State) : Result :=
  emitCv24 .ccGeneric (statusByte 0xB#4 c) d1 d2 (.controlChange c (data7 d1) (data7 d2)) s

/-- UNSUPPORTED (R181): the data bytes are not checked and not recorded. -/
def execUnsupported (S _d1 _d2 : Byte) (s : State) : Result :=
  match readyPrologue s with
  | some t => .next t
  | none => .next (s.endEvt .unsupportedEvent none (some (unsupportedRecord S)))

end Sys2Proof.Machine
end

