-- ==== Sys2Proof/Machine/SysEx.lean ====
section
/-! DEFINITION. SYSEX (R185 to R193). -/

namespace Sys2Proof.Machine

/-- End a SYSEX operation with a status, an event and its record (R185, R207). -/
def State.endSysex (s : State) (L : Nat) (cmd : Option Data7) (st : Status) (ev : Option AppEvent) : State :=
  s.endEvt st ev (some (sysexRecord L cmd st))

/-- `MFR_ID` as frame bytes: 7-bit values in 8-bit containers (R50, R186). -/
def mfrBytes (cfg : Cfg) : List Byte := cfg.mfrId.map (BitVec.setWidth 8)

/-- SYSEX once its command byte is known (R185, from `cmd not in CMDS` on): the command is checked before the
payload is decoded (R190), and a payload over capacity drops the frame (R191). -/
def sysexCommand (F : List Byte) (cmd : Data7) (s : State) : State :=
  if !s.cfg.hasCmd cmd then
    s.endSysex F.length (some cmd) .unrecognizedSysexCommand (some (.unrecognizedSysExCommand cmd))
  else
    match decode7 (slice F (s.cfg.prefixLen + 1) F.length) s.cfg.decodeCapacity with
    | .err st => s.endSysex F.length (some cmd) st none
    | .ok payload => s.endSysex F.length (some cmd) .ok (some (.sysExCommand cmd payload))

/-- SYSEX (R185): the checks in the order of R225. -/
def execSysex (F : List Byte) (s : State) : Result :=
  match readyPrologue s with
  | some t => .next t
  | none =>
    if F.length > s.cfg.maxSysexLen then .next (s.endSysex F.length none .sysexTooLong none)
    else if F.any highByte then .next (s.endSysex F.length none .malformedByte none)
    else if F.length < s.cfg.prefixLen + 1 then .next (s.endSysex F.length none .sysexTooShort none)
    else if slice F 0 s.cfg.prefixLen ≠ mfrBytes s.cfg then
      .next (s.endSysex F.length none .sysexForeign none)
    else
      match frameRead F s.cfg.prefixLen with
      | none => .fault .frameReadOutOfRange
      | some cmd => .next (sysexCommand F (data7 cmd) s)

end Sys2Proof.Machine
end

