-- ==== Sys2Proof/Machine/Dispatch.lean ====
section
/-! DEFINITION. One arm per operation (R85). -/

namespace Sys2Proof.Machine

def exec (i : Instr) (s : State) : Host.Outcome State Fault Refusal :=
  match i with
  | .noteOff c d1 d2 => Sys2Proof.Machine.execNoteOff c d1 d2 s
  | .noteOnVel0 c d1 => Sys2Proof.Machine.execNoteOnVel0 c d1 s
  | .noteOn c d1 d2 => Sys2Proof.Machine.execNoteOn c d1 d2 s
  | .ccNrpnIdMsb c d2 => Sys2Proof.Machine.execCcNrpnIdMsb c d2 s
  | .ccNrpnIdLsb c d2 => Sys2Proof.Machine.execCcNrpnIdLsb c d2 s
  | .ccDataEntryMsb c d2 => Sys2Proof.Machine.execCcDataEntryMsb c d2 s
  | .ccDataEntryLsb c d2 => Sys2Proof.Machine.execCcDataEntryLsb c d2 s
  | .ccGeneric c d1 d2 => Sys2Proof.Machine.execCcGeneric c d1 d2 s
  | .sysex frame => Sys2Proof.Machine.execSysex frame s
  | .unsupported status d1 d2 => Sys2Proof.Machine.execUnsupported status d1 d2 s
  | .begin => Sys2Proof.Machine.execBegin s
  | .codecDecode cap input => Sys2Proof.Machine.execCodecDecode cap input s
  | .codecEncode cap input => Sys2Proof.Machine.execCodecEncode cap input s
  | .unsupportedCtl word input => Sys2Proof.Machine.execUnsupportedCtl word input s

end Sys2Proof.Machine
end

