-- ==== Sys2Proof/Machine/Step.lean ====
section
/-! DEFINITION. One step: the next element of the run (R60, R281), or the idle block (R235). -/

namespace Sys2Proof.Machine

/-- One step. An operation at the head of the inputs is accepted and performed to completion (R6, R13, R60); a RESET
there takes effect, between two operations (R262); with nothing presented the block is idle and keeps its state
(R235, R261; log entry 9). -/
def step (s : State) : Host.Outcome State Fault Refusal :=
  match s.inputs with
  | [] => .next s
  | .reset :: rest => .next { s with inputs := rest }.applyReset
  | .op p :: rest => exec (decode p) (s.accept rest)

/-- `s` with the operation whose bits the opcode table numbers `w` presented next, before whatever else is
presented (log entries 10, 11). -/
def State.withFetchWord (s : State) (nbits w : Nat) : State :=
  match tablePortOp nbits w with
  | some p => { s with inputs := .op p :: s.inputs }
  | none => s

end Sys2Proof.Machine
end

