-- ==== Sys2Proof/Machine/Assembler.lean ====
section
/-! DEFINITION. The notation of operation streams: its lines (R86), its pseudo-operations (R87), and what each
stands for as inputs of the block. -/

namespace Sys2Proof.Machine

/-- One line of an operation stream (R86), the pseudo-operations of R87 among them. -/
inductive AsmOp where
  | noteoff (ch : Channel) (pitch vel : Byte)
  | noteon (ch : Channel) (pitch vel : Byte)
  | cc (ch : Channel) (ctl val : Byte)
  | sysex (F : List Byte)
  | begin
  | decode (cap : Capacity) (I : List Byte)
  | encode (cap : Capacity) (I : List Byte)
  | reset
  | nrpn (ch : Channel) (p v : Data14)
  | nrpnsel (ch : Channel) (p : Data14)
  | nrpnval (ch : Channel) (v : Data14)
  | sysexcmd (cmd : Data7) (data : List Byte)
deriving DecidableEq, Repr

/-- `p >> 7`, the MSB half of a 14-bit value as a data byte (R87). -/
def msbHalf (p : Data14) : Byte := (p >>> 7).setWidth 8

/-- `p & 0x7F`, the LSB half of a 14-bit value as a data byte (R87). -/
def lsbHalf (p : Data14) : Byte := (p &&& 0x7F#14).setWidth 8

/-- A Control Change on `EVT_IN` (R71, R86). -/
def ccInput (ch : Channel) (ctl val : Byte) : Input := .op (.evt (.cv24 (statusByte 0xB#4 ch) ctl val))

/-- `nrpnsel ch, p` (R87). -/
def nrpnSelect (ch : Channel) (p : Data14) : List Input :=
  [ccInput ch 99#8 (msbHalf p), ccInput ch 98#8 (lsbHalf p)]

/-- `nrpnval ch, v` (R87). -/
def nrpnValue (ch : Channel) (v : Data14) : List Input :=
  [ccInput ch 6#8 (msbHalf v), ccInput ch 38#8 (lsbHalf v)]

/-- The frame of `sysexcmd cmd, data`: `MFR_ID ++ [cmd] ++ Encode7(data)` (R87). -/
def sysexCmdFrame (cfg : Cfg) (cmd : Data7) (data : List Byte) : List Byte :=
  cfg.mfrId.map (BitVec.setWidth 8) ++ cmd.setWidth 8 :: packGroups (ceilDiv data.length 7) data

/-- The inputs a line stands for (R86, R87). -/
def assemble (cfg : Cfg) : AsmOp → List Input
  | .noteoff ch p v => [.op (.evt (.cv24 (statusByte 0x8#4 ch) p v))]
  | .noteon ch p v => [.op (.evt (.cv24 (statusByte 0x9#4 ch) p v))]
  | .cc ch ctl val => [ccInput ch ctl val]
  | .sysex F => [.op (.evt (.sx F))]
  | .begin => [.op (.ctl (ctlWord 0x01#8 0x00#8 0#16) [])]
  | .decode cap I => [.op (.ctl (ctlWord 0x02#8 0x00#8 cap) I)]
  | .encode cap I => [.op (.ctl (ctlWord 0x03#8 0x00#8 cap) I)]
  | .reset => [.reset]
  | .nrpn ch p v => nrpnSelect ch p ++ nrpnValue ch v
  | .nrpnsel ch p => nrpnSelect ch p
  | .nrpnval ch v => nrpnValue ch v
  | .sysexcmd cmd data => [.op (.evt (.sx (sysexCmdFrame cfg cmd data)))]

/-- A byte sequence in the notation, `[b0, b1, ...]`, numbers in decimal (R86). -/
def bytesText (l : List Byte) : String :=
  "[" ++ ", ".intercalate (l.map fun b => toString b.toNat) ++ "]"

/-- A line's text: the operation's name, a space, its operands between commas (R86, R87). -/
def AsmOp.text : AsmOp → String
  | .noteoff ch p v => line "noteoff" [num ch.toNat, num p.toNat, num v.toNat]
  | .noteon ch p v => line "noteon" [num ch.toNat, num p.toNat, num v.toNat]
  | .cc ch ctl val => line "cc" [num ch.toNat, num ctl.toNat, num val.toNat]
  | .sysex F => line "sysex" [bytesText F]
  | .begin => "begin"
  | .decode cap I => line "decode" [num cap.toNat, bytesText I]
  | .encode cap I => line "encode" [num cap.toNat, bytesText I]
  | .reset => "reset"
  | .nrpn ch p v => line "nrpn" [num ch.toNat, num p.toNat, num v.toNat]
  | .nrpnsel ch p => line "nrpnsel" [num ch.toNat, num p.toNat]
  | .nrpnval ch v => line "nrpnval" [num ch.toNat, num v.toNat]
  | .sysexcmd cmd data => line "sysexcmd" [num cmd.toNat, bytesText data]
where
  num (n : Nat) : String := toString n
  line (name : String) (operands : List String) : String := name ++ " " ++ ", ".intercalate operands

end Sys2Proof.Machine
end

