-- ==== Sys2Proof/Machine/Observe.lean ====
section
/-! DEFINITION. What each output port has carried (R70), and the observation of a run (R281). -/

namespace Sys2Proof.Machine

/-- The status on `EVT_STATUS` (R70). -/
def OpOutput.evtStatus : OpOutput → Option Status
  | .evt st _ _ => some st
  | .ctl _ _ => none

/-- The application event on `EVT_OUT` (R70). -/
def OpOutput.appEvent : OpOutput → Option AppEvent
  | .evt _ ev _ => ev
  | .ctl _ _ => none

/-- The response on `CTL_OUT` (R70, R78). -/
def OpOutput.response : OpOutput → Option (Status × List Byte)
  | .evt _ _ _ => none
  | .ctl st out => some (st, out)

/-- The offered diagnostic record (R207). -/
def OpOutput.diagOffer : OpOutput → Option DiagOffer
  | .evt _ _ d => d
  | .ctl _ _ => none

/-- What `DIAG_OUT` carried: the offered record, if it was delivered (R208). -/
def OpOutput.diagDelivered (o : OpOutput) : Option DiagRecord :=
  match o.diagOffer with
  | some d => if d.delivered then some d.record else none
  | none => none

/-- An output without its diagnostic record, which is not part of an observation (R281). -/
def OpOutput.withoutDiag : OpOutput → OpOutput
  | .evt st ev _ => .evt st ev none
  | .ctl st out => .ctl st out

/-- `EVT_STATUS` so far, oldest first. -/
def State.evtStatuses (s : State) : List Status := s.outputs.filterMap OpOutput.evtStatus

/-- `EVT_OUT` so far, oldest first. -/
def State.appEvents (s : State) : List AppEvent := s.outputs.filterMap OpOutput.appEvent

/-- `CTL_OUT` so far, oldest first. -/
def State.responses (s : State) : List (Status × List Byte) := s.outputs.filterMap OpOutput.response

/-- `DIAG_OUT` so far, oldest first: the delivered records. -/
def State.diagRecords (s : State) : List DiagRecord := s.outputs.filterMap OpOutput.diagDelivered

/-- The observation of a run (R281): the three sequences, and the final state of R22. -/
structure Observation where
  statuses : List Status
  events : List AppEvent
  responses : List (Status × List Byte)
  wired : Bool
  nrpn : NrpnBank
deriving DecidableEq, Repr

/-- What of a state a run's observation holds (R281). -/
def State.observe (s : State) : Observation where
  statuses := s.evtStatuses
  events := s.appEvents
  responses := s.responses
  wired := s.wired
  nrpn := s.nrpn

/-- A run (R281): the reset state of a configuration, with the whole sequence presented. -/
def State.start (cfg : Cfg) (run : List Input) : State :=
  { State.reset with cfg := cfg, nrpn := NrpnBank.idle cfg.nrpnPerChannel, inputs := run }

end Sys2Proof.Machine
end

