-- ==== Sys2Proof/Safety.lean ====
section
/-! DEFINITION. What a safe run is (R220), and the invariant of the block: the field sets (R29, R132), the shape of
the bank (R22), and the records the ports carry (R78, R79, R207, R221, R222). -/

namespace Sys2Proof.Machine

/-- A run of `n` steps that neither faults nor refuses (R220: "never traps, halts or aborts"). -/
def SafeRun (s : State) (n : Nat) : Prop := ∃ t, Host.Core.run Sys2Proof.core n s = .next t

/-- R29: a value field is set only when both identifier fields are. -/
def NrpnFields.valueNeedsIdentifier (f : NrpnFields) : Bool :=
  !(f.valueMsb.isSome || f.valueLsb.isSome) || (f.identifierMsb.isSome && f.identifierLsb.isSome)

/-- R132: the phases a field set can be in between two operations. -/
def NrpnFields.betweenOps (f : NrpnFields) : Bool :=
  f.phase = some .idle || f.phase = some .identifierPartial ||
    f.phase = some .identifierComplete || f.phase = some .valuePartial

/-- The shape of the bank is the one `CFG.NRPN_PER_CHANNEL` gives it (R22). -/
def State.bankFits (s : State) : Bool := s.nrpn.isPerChannel == s.cfg.nrpnPerChannel

/-- The constraints of R79 on the fields of an event, and the membership that R185 has checked for a command. -/
def AppEvent.legal (cfg : Cfg) : AppEvent → Bool
  | .noteOn _ _ v => v != 0#7
  | .noteOff _ _ _ => true
  | .controlChange _ n _ => n != 6#7 && n != 38#7 && n != 98#7 && n != 99#7
  | .nrpnParameterChange _ _ _ => true
  | .sysExCommand cmd payload => cfg.hasCmd cmd && decide (payload.length ≤ cfg.decodeCapacity)
  | .unrecognizedSysExCommand cmd => !cfg.hasCmd cmd

/-- Which event a status goes with (R222): `OK` on the event port with exactly one event,
`UNRECOGNIZED_SYSEX_COMMAND` with its own, every other status with none; `NRPN_DISCARDED` never (R146). -/
def statusFitsEvent : Status → Option AppEvent → Bool
  | .nrpnDiscarded, _ => false
  | .ok, some (.unrecognizedSysExCommand _) => false
  | .ok, some _ => true
  | .ok, none => false
  | .unrecognizedSysexCommand, some (.unrecognizedSysExCommand _) => true
  | .unrecognizedSysexCommand, _ => false
  | _, none => true
  | _, some _ => false

/-- The fields R207 gives each operation's record. -/
def DiagRecord.legal (r : DiagRecord) : Bool :=
  match r.op with
  | .sysex => r.S == 0xF0#8 && r.D1.isNone && r.D2.isNone && r.L.isSome
  | .unsupported => r.D1.isNone && r.D2.isNone && r.L.isNone && r.cmd.isNone
  | _ => r.D1.isSome && r.D2.isSome && r.L.isNone && r.cmd.isNone

/-- What an operation may present: a status and event that go together, one diagnostic record with that status
unless the status is `NOT_READY` (R172, R207); on the control port no bytes unless `OK` (R78), and one of the
statuses R225 lists for it. -/
def OpOutput.legal (cfg : Cfg) : OpOutput → Bool
  | .evt st ev diag =>
    statusFitsEvent st ev && ev.all (AppEvent.legal cfg) && (diag.isNone == (st == .notReady)) &&
      diag.all (fun d => d.record.status == st && d.record.legal)
  | .ctl st out =>
    (st == .ok || out.isEmpty) &&
      (st == .ok || st == .malformedByte || st == .bufferOverflow || st == .unsupportedEvent)

/-- The invariant of the block. -/
def State.Inv (s : State) : Prop :=
  s.bankFits = true ∧ s.nrpn.sets.all NrpnFields.betweenOps = true ∧
    s.outputs.all (OpOutput.legal s.cfg) = true

end Sys2Proof.Machine
end

