-- ==== Sys2Proof/Certificates/Slice0/Obligations.lean ====
section
/-! DEFINITION. The statements for the provers. `Sys2Proof.Claims` holds the words they are written in: the next
state an operation leaves is written out as a record update, so that each result says its frame as well, and what
the codec and the encodings do is written with numbers, not with the model's own functions. -/

namespace Sys2Proof.Claims
open Sys2Proof.Machine

/-- The state after an event-port operation that presented a status, perhaps an event, and offered a record; nothing
else changes. Whether the record is delivered is the free draw of R208. -/
def presented (s : State) (st : Status) (ev : Option AppEvent) (r : DiagRecord) : State :=
  { s with
    outputs := s.outputs ++ [.evt st ev (some ⟨r, Config.freeDiagDelivered s.diagDraws⟩)]
    diagDraws := s.diagDraws + 1 }

/-- The state after an event-port operation that was turned away with `NOT_READY`. -/
def turnedAway (s : State) : State := { s with outputs := s.outputs ++ [.evt .notReady none none] }

/-- The state after a control-port operation that presented a response; nothing else changes. -/
def responded (s : State) (st : Status) (out : List Byte) : State :=
  { s with outputs := s.outputs ++ [.ctl st out] }

/-- The diagnostic record of a `CV24` operation (R207). -/
def cvRec (op : EvtOpName) (S d1 d2 : Byte) (st : Status) : DiagRecord :=
  ⟨op, S, some d1, some d2, none, none, st⟩

/-- The diagnostic record of SYSEX (R207). -/
def sxRec (L : Nat) (cmd : Option Data7) (st : Status) : DiagRecord :=
  ⟨.sysex, 0xF0#8, none, none, some L, cmd, st⟩

/-- The channel of a status byte, as a number modulo 16 (R80). -/
def chan (S : Byte) : Channel := BitVec.ofNat 4 S.toNat

/-- The 7-bit value of a data byte below 128 (R80). -/
def val7 (b : Byte) : Data7 := BitVec.ofNat 7 b.toNat

/-- What the prologue does to a `CV24` operation other than UNSUPPORTED (R171): `NOT_READY` before BEGIN, then
`MALFORMED_BYTE` for a data byte of 128 or more. -/
def CvPrologue (i : Instr) (op : EvtOpName) (S d1 d2 : Byte) : Prop :=
  ∀ s : State,
    (s.wired = false → exec i s = .next (turnedAway s)) ∧
    (s.wired = true → 128 ≤ d1.toNat ∨ 128 ≤ d2.toNat →
      exec i s = .next (presented s .malformedByte none (cvRec op S d1 d2 .malformedByte)))

/-- Past the prologue, the operation leaves exactly the state `good s`. -/
def CvCompletes (i : Instr) (d1 d2 : Byte) (good : State → State) : Prop :=
  ∀ s : State, s.wired = true → d1.toNat < 128 → d2.toNat < 128 → exec i s = .next (good s)

/-- `inp` unpacks to `out` (R101, R102, R105, R115), by position: output byte `i` comes from data byte `i % 7` of
group `i / 7`, and its bit 7 is bit `i % 7` of that group's header. -/
def Unpacks (inp out : List Byte) : Prop :=
  out.length = inp.length - (inp.length + 7) / 8 ∧
  ∀ i, i < out.length → ∃ hdr data b : Byte,
    inp[8 * (i / 7)]? = some hdr ∧ inp[i + i / 7 + 1]? = some data ∧ out[i]? = some b ∧
      b.toNat = data.toNat % 128 + 128 * (hdr.getLsbD (i % 7)).toNat

/-- `inp` packs to `out` (R101, R103, R104), by position: byte `i` goes without its bit 7 to data byte `i % 7` of
group `i / 7`, and bit `k` of a group's header is bit 7 of the group's byte `k`, 0 where there is none. -/
def Packs (inp out : List Byte) : Prop :=
  out.length = inp.length + (inp.length + 6) / 7 ∧
  (∀ i b, inp[i]? = some b → ∃ d : Byte, out[i + i / 7 + 1]? = some d ∧ d.toNat = b.toNat % 128) ∧
  (∀ g, 7 * g < inp.length → ∃ h : Byte, out[8 * g]? = some h ∧
    ∀ k, k < 8 → (h.getLsbD k = true ↔ k < 7 ∧ ∃ b, inp[7 * g + k]? = some b ∧ 128 ≤ b.toNat))

/-- Every byte is a 7-bit wire byte. -/
def AllSevenBit (l : List Byte) : Prop := ∀ b ∈ l, b.toNat < 128

/-- Every header bit that belongs to no data byte is 0 (R114): bits `j` to 6 of the header of a last group of `j`
data bytes. -/
def UnusedHeaderBitsZero (y : List Byte) : Prop :=
  y.length % 8 ≠ 0 → ∀ hdr, y[8 * (y.length / 8)]? = some hdr →
    ∀ k, y.length % 8 - 1 ≤ k → k < 7 → hdr.getLsbD k = false

/-- After `run`, presented to `s` in place of whatever was presented, the block is in `t`. -/
def After (s : State) (run : List Input) (t : State) : Prop :=
  Host.Core.run Sys2Proof.core run.length { s with inputs := run } = .next t

/-- A Control Change on channel `c` (R71, R72). -/
def cc (c : Channel) (ctl : Byte) (v : Data7) : Input :=
  .op (.evt (.cv24 (0xB0#8 ||| c.setWidth 8) ctl (v.setWidth 8)))

/-- The event of a completed transaction: MSB half, then LSB half, of each 14-bit quantity (R135). -/
def nrpnEvent (c : Channel) (a b x y : Data7) : AppEvent :=
  .nrpnParameterChange c (a ++ b) (x ++ y)

/-- An NRPN event (R79). -/
def isNrpnEvent : AppEvent → Bool
  | .nrpnParameterChange _ _ _ => true
  | _ => false

/-- The four operations the NrpnAssembler consumes (R136). -/
def isNrpnOp : Instr → Bool
  | .ccNrpnIdMsb _ _ | .ccNrpnIdLsb _ _ | .ccDataEntryMsb _ _ | .ccDataEntryLsb _ _ => true
  | _ => false

/-- The channel of an NRPN operation. -/
def nrpnChannel : Instr → Option Channel
  | .ccNrpnIdMsb c _ | .ccNrpnIdLsb c _ | .ccDataEntryMsb c _ | .ccDataEntryLsb c _ => some c
  | _ => none

/-- An input that is no NRPN operation and no RESET. -/
def leavesNrpnAlone : Input → Bool
  | .reset => false
  | .op p => !isNrpnOp (decode p)

/-- An input that is no identifier write and no RESET. -/
def keepsIdentifiers : Input → Bool
  | .reset => false
  | .op p =>
    match decode p with
    | .ccNrpnIdMsb _ _ | .ccNrpnIdLsb _ _ => false
    | _ => true

/-- The name of an event-port operation in its diagnostic record (R207). -/
def evtName : Instr → Option EvtOpName
  | .noteOff _ _ _ => some .noteOff
  | .noteOnVel0 _ _ => some .noteOnVel0
  | .noteOn _ _ _ => some .noteOn
  | .ccNrpnIdMsb _ _ => some .ccNrpnIdMsb
  | .ccNrpnIdLsb _ _ => some .ccNrpnIdLsb
  | .ccDataEntryMsb _ _ => some .ccDataEntryMsb
  | .ccDataEntryLsb _ _ => some .ccDataEntryLsb
  | .ccGeneric _ _ _ => some .ccGeneric
  | .sysex _ => some .sysex
  | .unsupported _ _ _ => some .unsupported
  | .begin => none
  | .codecDecode _ _ => none
  | .codecEncode _ _ => none
  | .unsupportedCtl _ _ => none

/-- The operation answers with a next state and presents exactly `o`. -/
def Presents (i : Instr) (s : State) (o : OpOutput) : Prop :=
  ∃ t, exec i s = .next t ∧ t.outputs = s.outputs ++ [o]

/-- Two states get the same answer from an operation: the same status, event, response and offered record, whether
or not the record is delivered (R208). -/
def SameAnswer (i : Instr) (s₁ s₂ : State) : Prop :=
  ∃ o₁ o₂, Presents i s₁ o₁ ∧ Presents i s₂ o₂ ∧ o₁.withoutDiag = o₂.withoutDiag ∧
    o₁.diagOffer.map DiagOffer.record = o₂.diagOffer.map DiagOffer.record

/-- The port an output record belongs to: `true` for the event port. -/
def onEvt : OpOutput → Bool
  | .evt _ _ _ => true
  | .ctl _ _ => false

/-- The port each operation of a run is presented on; RESET is on none. -/
def portsOf : List Input → List Bool
  | [] => []
  | .reset :: rest => portsOf rest
  | .op (.evt _) :: rest => true :: portsOf rest
  | .op (.ctl _ _) :: rest => false :: portsOf rest

/-- One row of the transition table of R147: from a field set `f`, controller `ctl` with value `v` leaves `f'`,
returns `st` and emits `ev`, on every channel and from every wired state whose set for the channel is `f`. -/
def TableRow (f : NrpnFields) (ctl : Byte) (v : Data7) (f' : NrpnFields) (st : Status)
    (ev : Option (Data14 × Data14)) : Prop :=
  ∀ (c : Channel) (s : State), s.wired = true → s.nrpn.get c = f →
    ∃ (t : State) (d : Option DiagOffer),
      exec (decode (.evt (.cv24 (0xB0#8 ||| c.setWidth 8) ctl (v.setWidth 8)))) s = .next t ∧
      t.nrpn.get c = f' ∧ t.nrpn = s.nrpn.set c f' ∧
      t.outputs = s.outputs ++ [.evt st (ev.map fun pv => .nrpnParameterChange c pv.1 pv.2) d]

/-- The other reading of §4.2 that R148 compares with: a value Control Change is stored whether or not the
identifier is complete. -/
def storing (f : NrpnFields) (c : Channel) (ctl v : Data7) : NrpnFields × Option AppEvent :=
  if ctl = 99#7 then ({ f with identifierMsb := some v, valueMsb := none, valueLsb := none }, none)
  else if ctl = 98#7 then ({ f with identifierLsb := some v, valueMsb := none, valueLsb := none }, none)
  else if ctl = 6#7 then complete { f with valueMsb := some v } c
  else if ctl = 38#7 then complete { f with valueLsb := some v } c
  else (f, none)
where
  complete (f : NrpnFields) (c : Channel) : NrpnFields × Option AppEvent :=
    match f with
    | ⟨some a, some b, some x, some y⟩ => (⟨some a, some b, none, none⟩, some (nrpnEvent c a b x y))
    | f => (f, none)

/-- The model's own assembler, as a field set and the event it emits. -/
def ignoring (f : NrpnFields) (c : Channel) (ctl v : Data7) : NrpnFields × Option AppEvent :=
  match onControlChange f c ctl v with
  | (.emitted e, f') => (f', some e)
  | (.consumed _, f') => (f', none)
  | (.notNrpn, f') => (f', none)

/-- The events an assembler emits over a stream of Control Changes (channel, controller, value), on a bank. -/
def bankEvents (asm : NrpnFields → Channel → Data7 → Data7 → NrpnFields × Option AppEvent) :
    NrpnBank → List (Channel × Data7 × Data7) → List AppEvent
  | _, [] => []
  | bank, (c, ctl, v) :: rest =>
    (asm (bank.get c) c ctl v).2.toList ++ bankEvents asm (bank.set c (asm (bank.get c) c ctl v).1) rest

end Sys2Proof.Claims

open Sys2Proof Sys2Proof.Machine Sys2Proof.Claims

/-! ## Encoding -/

/-- R71 to R85: decoding the encoding of a well-formed operation gives it back, with every operand. -/
def Obligations.DecodeOfEncodeGivesTheOperationBack : Prop :=
  ∀ i : Instr, i.wf = true → decode (encode i) = i

/-- R83, R84: each encoding has one meaning: whatever a port presents decodes to a well-formed operation, and that
operation's encoding is what was presented. That the two refusals carry the rest of their encoding, and so give it
back, is the model's choice (log entry 12, on the operand lines of R181 and R205). -/
def Obligations.EncodeOfDecodeGivesTheEncodingBack : Prop :=
  ∀ p : PortOp, (decode p).wf = true ∧ encode (decode p) = p

/-- R88, the worked encodings: what each line of the notation stands for, and what its bytes or its word decode to. -/
def Obligations.WorkedEncodingsDecode : Prop :=
  (∀ cfg : Cfg,
    assemble cfg (.cc 0#4 99#8 0x12#8) = [.op (.evt (.cv24 0xB0#8 0x63#8 0x12#8))] ∧
    assemble cfg (.noteon 3#4 60#8 0#8) = [.op (.evt (.cv24 0x93#8 0x3C#8 0x00#8))] ∧
    assemble cfg (.cc 15#4 7#8 100#8) = [.op (.evt (.cv24 0xBF#8 0x07#8 0x64#8))] ∧
    assemble cfg (.decode 8#16 [0x01#8, 0x00#8]) = [.op (.ctl 0x02000008#32 [0x01#8, 0x00#8])]) ∧
  (evtMsgOfBytes [0xB0#8, 0x63#8, 0x12#8]).toOption.map decodeEvt = some (.ccNrpnIdMsb 0#4 0x12#8) ∧
  (evtMsgOfBytes [0x93#8, 0x3C#8, 0x00#8]).toOption.map decodeEvt = some (.noteOnVel0 3#4 0x3C#8) ∧
  (evtMsgOfBytes [0xBF#8, 0x07#8, 0x64#8]).toOption.map decodeEvt = some (.ccGeneric 15#4 0x07#8 0x64#8) ∧
  decode (.ctl 0x02000008#32 [0x01#8, 0x00#8]) = .codecDecode 8#16 [0x01#8, 0x00#8]

/-- R81: every reserved encoding is refused as an operation of its own: `UNSUPPORTED_EVENT`, no state change, no
event; on `EVT_IN` one diagnostic record when wired, and `NOT_READY` with no record when not (R171). -/
def Obligations.ReservedEncodingsAreRefused : Prop :=
  (∀ (S d1 d2 : Byte) (s : State),
    S.toNat < 0x80 ∨ (0xA0 ≤ S.toNat ∧ S.toNat ≤ 0xAF) ∨ 0xC0 ≤ S.toNat →
    (s.wired = true → exec (decode (.evt (.cv24 S d1 d2))) s =
      .next (presented s .unsupportedEvent none ⟨.unsupported, S, none, none, none, none, .unsupportedEvent⟩)) ∧
    (s.wired = false → exec (decode (.evt (.cv24 S d1 d2))) s = .next (turnedAway s))) ∧
  (∀ (w : CtlWord) (I : List Byte) (s : State),
    w.toNat / 2 ^ 24 = 0 ∨ 4 ≤ w.toNat / 2 ^ 24 ∨ w.toNat / 2 ^ 16 % 2 ^ 8 ≠ 0 ∨
      (w.toNat / 2 ^ 24 = 1 ∧ (w.toNat % 2 ^ 16 ≠ 0 ∨ I ≠ [])) →
    exec (decode (.ctl w I)) s = .next (responded s .unsupportedEvent []))

/-- R76, R55: the byte forms: an `EVT_IN` message is read back from its bytes unless it is a `CV24` whose status byte
is `0xF0`, and a control word from its four bytes, the high one first. -/
def Obligations.MessagesAreReadBackFromTheirBytes : Prop :=
  (∀ S D1 D2 : Byte, S ≠ 0xF0#8 → evtMsgOfBytes [S, D1, D2] = .ok (.cv24 S D1 D2)) ∧
  (∀ F : List Byte, evtMsgOfBytes (0xF0#8 :: F) = .ok (.sx F)) ∧
  (∀ b3 b2 b1 b0 : Byte, ctlWordBytes (ctlWordOfBytes b3 b2 b1 b0) = [b3, b2, b1, b0] ∧
    (ctlWordOfBytes b3 b2 b1 b0).toNat =
      b3.toNat * 2 ^ 24 + b2.toNat * 2 ^ 16 + b1.toNat * 2 ^ 8 + b0.toNat)

/-! ## The event-port prologue and the note path -/

/-- R171: before BEGIN every event-port operation is turned away with `NOT_READY`, no event and no record; when
wired, a `CV24` operation other than UNSUPPORTED with a data byte of 128 or more ends with `MALFORMED_BYTE` and one
record; an UNSUPPORTED one is not checked for data bytes. -/
def Obligations.EventPrologueRunsFirst : Prop :=
  (∀ (i : Instr) (s : State), i.onEvtPort = true → s.wired = false → exec i s = .next (turnedAway s)) ∧
  (∀ (S d1 d2 : Byte) (s : State), s.wired = true →
    S.toNat / 16 = 0x8 ∨ S.toNat / 16 = 0x9 ∨ S.toNat / 16 = 0xB → 128 ≤ d1.toNat ∨ 128 ≤ d2.toNat →
    ∃ op, evtName (decode (.evt (.cv24 S d1 d2))) = some op ∧
      exec (decode (.evt (.cv24 S d1 d2))) s =
        .next (presented s .malformedByte none (cvRec op S d1 d2 .malformedByte))) ∧
  (∀ (S d1 d2 : Byte) (s : State), s.wired = true →
    S.toNat / 16 ≠ 0x8 → S.toNat / 16 ≠ 0x9 → S.toNat / 16 ≠ 0xB →
    ∃ r, exec (decode (.evt (.cv24 S d1 d2))) s = .next (presented s .unsupportedEvent none r))

/-- R175: NOTE_OFF, whole. -/
def Obligations.NoteOffIsForwarded : Prop :=
  ∀ S d1 d2 : Byte, 0x80 ≤ S.toNat → S.toNat ≤ 0x8F →
    decode (.evt (.cv24 S d1 d2)) = .noteOff (chan S) d1 d2 ∧
    CvPrologue (.noteOff (chan S) d1 d2) .noteOff S d1 d2 ∧
    CvCompletes (.noteOff (chan S) d1 d2) d1 d2 fun s =>
      presented s .ok (some (.noteOff (chan S) (val7 d1) (val7 d2))) (cvRec .noteOff S d1 d2 .ok)

/-- R176: NOTE_ON, whole; velocity 0 is not a NOTE_ON (R74). -/
def Obligations.NoteOnIsForwarded : Prop :=
  ∀ S d1 d2 : Byte, 0x90 ≤ S.toNat → S.toNat ≤ 0x9F → d2.toNat ≠ 0 →
    decode (.evt (.cv24 S d1 d2)) = .noteOn (chan S) d1 d2 ∧
    CvPrologue (.noteOn (chan S) d1 d2) .noteOn S d1 d2 ∧
    CvCompletes (.noteOn (chan S) d1 d2) d1 d2 fun s =>
      presented s .ok (some (.noteOn (chan S) (val7 d1) (val7 d2))) (cvRec .noteOn S d1 d2 .ok)

/-- R177: NOTE_ON_VEL0, whole: a Note On with velocity 0 emits a Note Off with velocity 0. -/
def Obligations.NoteOnWithVelocityZeroIsANoteOff : Prop :=
  ∀ S d1 : Byte, 0x90 ≤ S.toNat → S.toNat ≤ 0x9F →
    decode (.evt (.cv24 S d1 0x00#8)) = .noteOnVel0 (chan S) d1 ∧
    CvPrologue (.noteOnVel0 (chan S) d1) .noteOnVel0 S d1 0x00#8 ∧
    CvCompletes (.noteOnVel0 (chan S) d1) d1 0x00#8 fun s =>
      presented s .ok (some (.noteOff (chan S) (val7 d1) 0#7)) (cvRec .noteOnVel0 S d1 0x00#8 .ok)

/-- R178: `noteon c, p, 0` and `noteoff c, p, 0` give the same status, event and state, from every state and for
every pitch byte; only their diagnostic records may differ. A `noteoff c, p, v` emits `NoteOff` with its own
velocity. -/
def Obligations.NoteOnVelocityZeroAndNoteOffAgree : Prop :=
  (∀ (c : Channel) (p : Byte) (s : State), ∃ t₁ t₂,
    exec (decode (.evt (.cv24 (0x90#8 ||| c.setWidth 8) p 0#8))) s = .next t₁ ∧
    exec (decode (.evt (.cv24 (0x80#8 ||| c.setWidth 8) p 0#8))) s = .next t₂ ∧
    t₁.outputs.map OpOutput.withoutDiag = t₂.outputs.map OpOutput.withoutDiag ∧
    { t₁ with outputs := [] } = { t₂ with outputs := [] }) ∧
  (∀ (c : Channel) (p v : Data7) (s : State), s.wired = true → ∃ t d,
    exec (decode (.evt (.cv24 (0x80#8 ||| c.setWidth 8) (p.setWidth 8) (v.setWidth 8)))) s = .next t ∧
    t.outputs = s.outputs ++ [.evt .ok (some (.noteOff c p v)) d])

/-- R180: CC_GENERIC, whole: a controller outside {6, 38, 98, 99} is forwarded and no field set changes. -/
def Obligations.GenericControlChangeIsForwarded : Prop :=
  ∀ S d1 d2 : Byte, 0xB0 ≤ S.toNat → S.toNat ≤ 0xBF →
    d1.toNat ≠ 6 → d1.toNat ≠ 38 → d1.toNat ≠ 98 → d1.toNat ≠ 99 →
    decode (.evt (.cv24 S d1 d2)) = .ccGeneric (chan S) d1 d2 ∧
    CvPrologue (.ccGeneric (chan S) d1 d2) .ccGeneric S d1 d2 ∧
    CvCompletes (.ccGeneric (chan S) d1 d2) d1 d2 fun s =>
      presented s .ok (some (.controlChange (chan S) (val7 d1) (val7 d2))) (cvRec .ccGeneric S d1 d2 .ok)

/-- R181: UNSUPPORTED, whole. -/
def Obligations.UnsupportedEventIsRefused : Prop :=
  ∀ S d1 d2 : Byte, S.toNat / 16 ≠ 0x8 → S.toNat / 16 ≠ 0x9 → S.toNat / 16 ≠ 0xB →
    decode (.evt (.cv24 S d1 d2)) = .unsupported S d1 d2 ∧
    ∀ s : State,
      (s.wired = false → exec (.unsupported S d1 d2) s = .next (turnedAway s)) ∧
      (s.wired = true → exec (.unsupported S d1 d2) s =
        .next (presented s .unsupportedEvent none ⟨.unsupported, S, none, none, none, none, .unsupportedEvent⟩))

/-- R172, R207: when wired, an event-port operation presents one status, at most one event and exactly one offered
record, whose fields are the operation's own; the record of a SYSEX holds the command exactly when the frame reached
its command byte. One turned away with `NOT_READY`, and a control-port operation, offers no record. -/
def Obligations.EachEventOperationOffersItsOwnRecord : Prop :=
  (∀ (i : Instr) (s : State), i.onEvtPort = false → ∃ st out, Presents i s (.ctl st out)) ∧
  ∀ (i : Instr) (s : State), i.onEvtPort = true → ∃ (st : Status) (ev : Option AppEvent) (d : Option DiagOffer),
    Presents i s (.evt st ev d) ∧ (s.wired = false → st = .notReady ∧ d = none) ∧
    (s.wired = true → ∃ r b op, d = some ⟨r, b⟩ ∧ evtName i = some op ∧ r.op = op ∧ r.status = st ∧
      (∀ S d1 d2, encode i = .evt (.cv24 S d1 d2) → op ≠ .unsupported → r = cvRec op S d1 d2 st) ∧
      (∀ S d1 d2, i = .unsupported S d1 d2 → r = ⟨.unsupported, S, none, none, none, none, st⟩) ∧
      (∀ F, i = .sysex F → ∃ cmd, r = sxRec F.length cmd st ∧
        (cmd.isSome = true ↔ st = .ok ∨ st = .bufferOverflow ∨ st = .unrecognizedSysexCommand) ∧
        (∀ x, cmd = some x → ∃ b, F[s.cfg.mfrId.length]? = some b ∧ x = val7 b)))

/-! ## The NRPN assembler -/

/-- R140: CC_NRPN_ID_MSB, whole, with its diagnostic record. The record is read from R172, R207 and R221, not from
R140 (log entry 13). -/
def Obligations.IdentifierMsbIsStored : Prop :=
  ∀ S d2 : Byte, 0xB0 ≤ S.toNat → S.toNat ≤ 0xBF →
    decode (.evt (.cv24 S 99#8 d2)) = .ccNrpnIdMsb (chan S) d2 ∧
    CvPrologue (.ccNrpnIdMsb (chan S) d2) .ccNrpnIdMsb S 99#8 d2 ∧
    CvCompletes (.ccNrpnIdMsb (chan S) d2) 99#8 d2 fun s =>
      presented
        { s with nrpn := s.nrpn.set (chan S) ⟨some (val7 d2), (s.nrpn.get (chan S)).identifierLsb, none, none⟩ }
        .nrpnPending none (cvRec .ccNrpnIdMsb S 99#8 d2 .nrpnPending)

/-- R141: CC_NRPN_ID_LSB, whole, with its diagnostic record. The record is read from R172, R207 and R221, not from
R141 (log entry 13). -/
def Obligations.IdentifierLsbIsStored : Prop :=
  ∀ S d2 : Byte, 0xB0 ≤ S.toNat → S.toNat ≤ 0xBF →
    decode (.evt (.cv24 S 98#8 d2)) = .ccNrpnIdLsb (chan S) d2 ∧
    CvPrologue (.ccNrpnIdLsb (chan S) d2) .ccNrpnIdLsb S 98#8 d2 ∧
    CvCompletes (.ccNrpnIdLsb (chan S) d2) 98#8 d2 fun s =>
      presented
        { s with nrpn := s.nrpn.set (chan S) ⟨(s.nrpn.get (chan S)).identifierMsb, some (val7 d2), none, none⟩ }
        .nrpnPending none (cvRec .ccNrpnIdLsb S 98#8 d2 .nrpnPending)

/-- R142: CC_DATA_ENTRY_MSB, whole: ignored while the identifier is incomplete, else stored; it completes the
transaction when the value LSB is there, and the event carries this operation's channel (R144). Its diagnostic record is
read from R172, R207 and R221, not from R142 (log entry 13). -/
def Obligations.DataEntryMsbStoresOrCompletes : Prop :=
  ∀ S d2 : Byte, 0xB0 ≤ S.toNat → S.toNat ≤ 0xBF →
    decode (.evt (.cv24 S 6#8 d2)) = .ccDataEntryMsb (chan S) d2 ∧
    CvPrologue (.ccDataEntryMsb (chan S) d2) .ccDataEntryMsb S 6#8 d2 ∧
    ∀ s : State, s.wired = true → d2.toNat < 128 →
      ((s.nrpn.get (chan S)).identifierMsb = none ∨ (s.nrpn.get (chan S)).identifierLsb = none →
        exec (.ccDataEntryMsb (chan S) d2) s =
          .next (presented s .nrpnIgnored none (cvRec .ccDataEntryMsb S 6#8 d2 .nrpnIgnored))) ∧
      (∀ a b vm, s.nrpn.get (chan S) = ⟨some a, some b, vm, none⟩ →
        exec (.ccDataEntryMsb (chan S) d2) s =
          .next (presented { s with nrpn := s.nrpn.set (chan S) ⟨some a, some b, some (val7 d2), none⟩ }
            .nrpnPending none (cvRec .ccDataEntryMsb S 6#8 d2 .nrpnPending))) ∧
      (∀ a b vm y, s.nrpn.get (chan S) = ⟨some a, some b, vm, some y⟩ →
        exec (.ccDataEntryMsb (chan S) d2) s =
          .next (presented { s with nrpn := s.nrpn.set (chan S) ⟨some a, some b, none, none⟩ }
            .ok (some (nrpnEvent (chan S) a b (val7 d2) y)) (cvRec .ccDataEntryMsb S 6#8 d2 .ok)))

/-- R143: CC_DATA_ENTRY_LSB, whole, with its diagnostic record. The record is read from R172, R207 and R221, not from
R143 (log entry 13). -/
def Obligations.DataEntryLsbStoresOrCompletes : Prop :=
  ∀ S d2 : Byte, 0xB0 ≤ S.toNat → S.toNat ≤ 0xBF →
    decode (.evt (.cv24 S 38#8 d2)) = .ccDataEntryLsb (chan S) d2 ∧
    CvPrologue (.ccDataEntryLsb (chan S) d2) .ccDataEntryLsb S 38#8 d2 ∧
    ∀ s : State, s.wired = true → d2.toNat < 128 →
      ((s.nrpn.get (chan S)).identifierMsb = none ∨ (s.nrpn.get (chan S)).identifierLsb = none →
        exec (.ccDataEntryLsb (chan S) d2) s =
          .next (presented s .nrpnIgnored none (cvRec .ccDataEntryLsb S 38#8 d2 .nrpnIgnored))) ∧
      (∀ a b vl, s.nrpn.get (chan S) = ⟨some a, some b, none, vl⟩ →
        exec (.ccDataEntryLsb (chan S) d2) s =
          .next (presented { s with nrpn := s.nrpn.set (chan S) ⟨some a, some b, none, some (val7 d2)⟩ }
            .nrpnPending none (cvRec .ccDataEntryLsb S 38#8 d2 .nrpnPending))) ∧
      (∀ a b x vl, s.nrpn.get (chan S) = ⟨some a, some b, some x, vl⟩ →
        exec (.ccDataEntryLsb (chan S) d2) s =
          .next (presented { s with nrpn := s.nrpn.set (chan S) ⟨some a, some b, none, none⟩ }
            .ok (some (nrpnEvent (chan S) a b x (val7 d2))) (cvRec .ccDataEntryLsb S 38#8 d2 .ok)))

/-- R147: the transition table, all 21 rows; and a malformed or not-ready Control Change leaves every set unchanged. -/
def Obligations.TransitionTableHolds : Prop :=
  (∀ (c : Channel) (d1 d2 : Byte) (s : State), s.wired = false ∨ 128 ≤ d1.toNat ∨ 128 ≤ d2.toNat →
    ∃ t, exec (decode (.evt (.cv24 (0xB0#8 ||| c.setWidth 8) d1 d2))) s = .next t ∧ t.nrpn = s.nrpn) ∧
  ∀ a b x y a' b' x' y' : Data7,
    TableRow ⟨none, none, none, none⟩ 99#8 a ⟨some a, none, none, none⟩ .nrpnPending none ∧
    TableRow ⟨none, none, none, none⟩ 98#8 b ⟨none, some b, none, none⟩ .nrpnPending none ∧
    (TableRow ⟨none, none, none, none⟩ 6#8 x ⟨none, none, none, none⟩ .nrpnIgnored none ∧
      TableRow ⟨none, none, none, none⟩ 38#8 y ⟨none, none, none, none⟩ .nrpnIgnored none) ∧
    TableRow ⟨some a, none, none, none⟩ 99#8 a' ⟨some a', none, none, none⟩ .nrpnPending none ∧
    TableRow ⟨some a, none, none, none⟩ 98#8 b ⟨some a, some b, none, none⟩ .nrpnPending none ∧
    (TableRow ⟨some a, none, none, none⟩ 6#8 x ⟨some a, none, none, none⟩ .nrpnIgnored none ∧
      TableRow ⟨some a, none, none, none⟩ 38#8 y ⟨some a, none, none, none⟩ .nrpnIgnored none) ∧
    TableRow ⟨none, some b, none, none⟩ 99#8 a ⟨some a, some b, none, none⟩ .nrpnPending none ∧
    TableRow ⟨none, some b, none, none⟩ 98#8 b' ⟨none, some b', none, none⟩ .nrpnPending none ∧
    (TableRow ⟨none, some b, none, none⟩ 6#8 x ⟨none, some b, none, none⟩ .nrpnIgnored none ∧
      TableRow ⟨none, some b, none, none⟩ 38#8 y ⟨none, some b, none, none⟩ .nrpnIgnored none) ∧
    TableRow ⟨some a, some b, none, none⟩ 99#8 a' ⟨some a', some b, none, none⟩ .nrpnPending none ∧
    TableRow ⟨some a, some b, none, none⟩ 98#8 b' ⟨some a, some b', none, none⟩ .nrpnPending none ∧
    TableRow ⟨some a, some b, none, none⟩ 6#8 x ⟨some a, some b, some x, none⟩ .nrpnPending none ∧
    TableRow ⟨some a, some b, none, none⟩ 38#8 y ⟨some a, some b, none, some y⟩ .nrpnPending none ∧
    TableRow ⟨some a, some b, some x, none⟩ 99#8 a' ⟨some a', some b, none, none⟩ .nrpnPending none ∧
    TableRow ⟨some a, some b, some x, none⟩ 98#8 b' ⟨some a, some b', none, none⟩ .nrpnPending none ∧
    TableRow ⟨some a, some b, some x, none⟩ 6#8 x' ⟨some a, some b, some x', none⟩ .nrpnPending none ∧
    TableRow ⟨some a, some b, some x, none⟩ 38#8 y ⟨some a, some b, none, none⟩ .ok
      (some (a ++ b, x ++ y)) ∧
    TableRow ⟨some a, some b, none, some y⟩ 99#8 a' ⟨some a', some b, none, none⟩ .nrpnPending none ∧
    TableRow ⟨some a, some b, none, some y⟩ 98#8 b' ⟨some a, some b', none, none⟩ .nrpnPending none ∧
    TableRow ⟨some a, some b, none, some y⟩ 6#8 x ⟨some a, some b, none, none⟩ .ok
      (some (a ++ b, x ++ y)) ∧
    TableRow ⟨some a, some b, none, some y⟩ 38#8 y' ⟨some a, some b, none, some y'⟩ .nrpnPending none

/-- R24: with NRPN_PER_CHANNEL there are 16 sets, and a write to `nrpn[c]` is read back on channel `c` and seen on no
other; without it there is one set, which every channel reads, and a write is read back on every channel. In either
case the bank keeps its shape. The premise is the shape clause of the invariant. -/
def Obligations.FieldSetsAreIndependentOrShared : Prop :=
  ∀ (s : State) (c : Channel) (f : NrpnFields), s.bankFits = true →
    (s.cfg.nrpnPerChannel = true → s.nrpn.sets.length = 16 ∧ (s.nrpn.set c f).get c = f ∧
      ∀ c', c' ≠ c → (s.nrpn.set c f).get c' = s.nrpn.get c') ∧
    (s.cfg.nrpnPerChannel = false → s.nrpn.sets.length = 1 ∧
      ∀ c', s.nrpn.get c' = s.nrpn.get c ∧ (s.nrpn.set c f).get c' = f) ∧
    (s.nrpn.set c f).isPerChannel = s.nrpn.isPerChannel

/-- R135: the 14-bit merge: `some` exactly for two halves up to 127, and then `128 * msb + lsb`, at most 16383. -/
def Obligations.MergeIsExact : Prop :=
  ∀ msb lsb : Nat,
    (msb ≤ 127 → lsb ≤ 127 → ∃ v : Data14, merge14 msb lsb = some v ∧ v.toNat = 128 * msb + lsb ∧
      128 * msb + lsb ≤ 16383) ∧
    (127 < msb ∨ 127 < lsb → merge14 msb lsb = none)

/-- R146: the failed merge guard: all four fields unset, `NRPN_DISCARDED`, no event; and no operation in any state
returns that status. -/
def Obligations.DiscardIsUnreachable : Prop :=
  nrpnDiscard = ⟨⟨none, none, none, none⟩, .nrpnDiscarded, none⟩ ∧
  ∀ (i : Instr) (s : State) (ev : Option AppEvent) (d : Option DiagOffer) (out : List Byte),
    ¬ Presents i s (.evt .nrpnDiscarded ev d) ∧ ¬ Presents i s (.ctl .nrpnDiscarded out)

/-- R131: the phase of a field set is the table's, told by which of the four fields are set; contents the table does
not list (R132) have none. An operation that reaches `Complete` emits the event and leaves `IdentifierComplete`. -/
def Obligations.PhasesFollowTheTable : Prop :=
  (∀ f : NrpnFields,
    (f.phase = some .idle ↔
      f.identifierMsb = none ∧ f.identifierLsb = none ∧ f.valueMsb = none ∧ f.valueLsb = none) ∧
    (f.phase = some .identifierPartial ↔
      (f.identifierMsb ≠ none ∧ f.identifierLsb = none ∨ f.identifierMsb = none ∧ f.identifierLsb ≠ none) ∧
        f.valueMsb = none ∧ f.valueLsb = none) ∧
    (f.phase = some .identifierComplete ↔
      f.identifierMsb ≠ none ∧ f.identifierLsb ≠ none ∧ f.valueMsb = none ∧ f.valueLsb = none) ∧
    (f.phase = some .valuePartial ↔
      f.identifierMsb ≠ none ∧ f.identifierLsb ≠ none ∧
        (f.valueMsb ≠ none ∧ f.valueLsb = none ∨ f.valueMsb = none ∧ f.valueLsb ≠ none)) ∧
    (f.phase = some .complete ↔
      f.identifierMsb ≠ none ∧ f.identifierLsb ≠ none ∧ f.valueMsb ≠ none ∧ f.valueLsb ≠ none) ∧
    (f.phase = none ↔
      (f.identifierMsb = none ∨ f.identifierLsb = none) ∧ (f.valueMsb ≠ none ∨ f.valueLsb ≠ none))) ∧
  (∀ (f : NrpnFields) (c : Channel), f.phase = some .complete →
    (tryComplete f c).fields.phase = some .identifierComplete ∧ (tryComplete f c).status = .ok ∧
      (tryComplete f c).event.isSome = true)

/-- R179, R134: a Control Change with 7-bit data bytes is offered to the assembler first, and the dispatcher ends it
by the assembler's answer: forwarded on `NotNrpn`, which is the answer for exactly the controllers outside
{99, 98, 6, 38}; the answer's status and no event on `Consumed`; `OK` and the event on `Emitted`. The assembler's field
set is what the channel's set becomes. -/
def Obligations.ControlChangesAreRoutedByTheAssemblersAnswer : Prop :=
  ∀ (c : Channel) (n v : Data7) (s : State), s.wired = true → ∃ (t : State) (d : Option DiagOffer),
    exec (decode (.evt (.cv24 (0xB0#8 ||| c.setWidth 8) (n.setWidth 8) (v.setWidth 8)))) s = .next t ∧
    t.nrpn = s.nrpn.set c (onControlChange (s.nrpn.get c) c n v).2 ∧
    t.wired = s.wired ∧ t.cfg = s.cfg ∧
    ((onControlChange (s.nrpn.get c) c n v).1 = .notNrpn ↔ n ≠ 99#7 ∧ n ≠ 98#7 ∧ n ≠ 6#7 ∧ n ≠ 38#7) ∧
    ((onControlChange (s.nrpn.get c) c n v).1 = .notNrpn →
      t.outputs = s.outputs ++ [.evt .ok (some (.controlChange c n v)) d]) ∧
    (∀ st, (onControlChange (s.nrpn.get c) c n v).1 = .consumed st →
      t.outputs = s.outputs ++ [.evt st none d]) ∧
    (∀ e, (onControlChange (s.nrpn.get c) c n v).1 = .emitted e →
      t.outputs = s.outputs ++ [.evt .ok (some e) d])

/-- R87, the pseudo-operation `nrpn`: from every wired state, the four Control Changes it stands for emit exactly
one event, with the two 14-bit values, whatever transaction was in progress. -/
def Obligations.NrpnPseudoOperationEmitsItsEvent : Prop :=
  ∀ (s : State) (c : Channel) (p v : Data14), s.wired = true →
    ∃ t, After s (assemble s.cfg (.nrpn c p v)) t ∧
      t.appEvents = s.appEvents ++ [.nrpnParameterChange c p v] ∧
      t.evtStatuses = s.evtStatuses ++ [.nrpnPending, .nrpnPending, .nrpnPending, .ok]

/-- R136, R139 (§8's four-message property): other traffic between the four messages, whatever it is and on
whatever channel, does not disturb a transaction, as long as it holds no NRPN operation and no RESET: exactly one
NRPN event comes out, with the four values. -/
def Obligations.TransactionSurvivesOtherTraffic : Prop :=
  ∀ (s : State) (c : Channel) (a b x y : Data7) (m₁ m₂ m₃ : List Input), s.wired = true →
    m₁.all leavesNrpnAlone = true → m₂.all leavesNrpnAlone = true → m₃.all leavesNrpnAlone = true →
    ∃ t, After s ([cc c 99#8 a] ++ m₁ ++ [cc c 98#8 b] ++ m₂ ++ [cc c 6#8 x] ++ m₃ ++ [cc c 38#8 y]) t ∧
      t.appEvents.filter isNrpnEvent = s.appEvents.filter isNrpnEvent ++ [nrpnEvent c a b x y]

/-- R149: after a completed transaction a fresh value pair alone emits a new event with the same identifier. -/
def Obligations.FreshValuePairReusesTheIdentifier : Prop :=
  ∀ (s : State) (c : Channel) (a b x y : Data7), s.wired = true →
    s.nrpn.get c = ⟨some a, some b, none, none⟩ →
    ∃ t, After s [cc c 6#8 x, cc c 38#8 y] t ∧
      t.appEvents = s.appEvents ++ [nrpnEvent c a b x y] ∧ t.nrpn.get c = ⟨some a, some b, none, none⟩

/-- R150: a fresh 99 between the third and fourth messages ends the first transaction without an event; the new
identifier is the new MSB with the kept LSB, and the value LSB that follows is stored and emits nothing. -/
def Obligations.FreshIdentifierDropsTheTransaction : Prop :=
  ∀ (s : State) (c : Channel) (a b x a' y : Data7), s.wired = true →
    ∃ t, After s [cc c 99#8 a, cc c 98#8 b, cc c 6#8 x, cc c 99#8 a', cc c 38#8 y] t ∧
      t.appEvents = s.appEvents ∧ t.nrpn.get c = ⟨some a', some b, none, some y⟩ ∧
      (t.nrpn.get c).phase = some .valuePartial

/-- R145: with one shared set, the four messages on four channels make one transaction, reported on the last
channel; with a set per channel and no transaction in progress, they emit nothing. The premise on the shape is the
shape clause of the invariant. -/
def Obligations.GlobalStateInterleavesChannels : Prop :=
  ∀ (s : State) (c₁ c₂ c₃ c₄ : Channel) (a b x y : Data7), s.wired = true → s.bankFits = true →
    (s.cfg.nrpnPerChannel = false →
      ∃ t, After s [cc c₁ 99#8 a, cc c₂ 98#8 b, cc c₃ 6#8 x, cc c₄ 38#8 y] t ∧
        t.appEvents = s.appEvents ++ [nrpnEvent c₄ a b x y]) ∧
    (s.cfg.nrpnPerChannel = true → [c₁, c₂, c₃, c₄].Nodup → (∀ c, s.nrpn.get c = NrpnFields.idle) →
      ∃ t, After s [cc c₁ 99#8 a, cc c₂ 98#8 b, cc c₃ 6#8 x, cc c₄ 38#8 y] t ∧
        t.appEvents = s.appEvents)

/-- R148: ignoring a value Control Change while the identifier is incomplete, and storing it, emit the same events
for every stream of Control Changes, with a set per channel and with one shared set. -/
def Obligations.IgnoringEarlyValuesEmitsTheSameEvents : Prop :=
  ∀ (perChannel : Bool) (stream : List (Channel × Data7 × Data7)),
    bankEvents ignoring (NrpnBank.idle perChannel) stream =
      bankEvents storing (NrpnBank.idle perChannel) stream

/-- R273: identifiers persist: over any run without an identifier write and without RESET, however long and from
any state, every identifier stays as it was; and a value pair after it, when the identifier is complete, emits an
event with the old identifier (and with the pair as its value, unless a value LSB was in flight). -/
def Obligations.IdentifiersPersist : Prop :=
  ∀ (s : State) (run : List Input), run.all keepsIdentifiers = true →
    (∃ t, After s run t ∧ ∀ c, (t.nrpn.get c).identifierMsb = (s.nrpn.get c).identifierMsb ∧
      (t.nrpn.get c).identifierLsb = (s.nrpn.get c).identifierLsb) ∧
    ∀ (c : Channel) (a b x y : Data7), s.wired = true →
      (s.nrpn.get c).identifierMsb = some a → (s.nrpn.get c).identifierLsb = some b →
      ∃ t u w v, After s run t ∧ After t [cc c 6#8 x] u ∧ After u [cc c 38#8 y] w ∧
        w.appEvents.getLast? = some (.nrpnParameterChange c (a ++ b) v) ∧
        ((t.nrpn.get c).valueLsb = none → v = x ++ y)

/-- R274: RPN selects (CC 101, CC 100) are generic, and the data entry that follows is captured by the NRPN
assembler: with an identifier set it emits with that identifier (with the pair as its value, or on the first of the
two messages when a value LSB was in flight), with none set whole it is ignored. -/
def Obligations.RpnDataEntryIsCaptured : Prop :=
  ∀ (s : State) (c : Channel) (m l x y : Data7), s.wired = true →
    (∀ a b vm, s.nrpn.get c = ⟨some a, some b, vm, none⟩ →
      ∃ t, After s [cc c 101#8 m, cc c 100#8 l, cc c 6#8 x, cc c 38#8 y] t ∧
        t.appEvents = s.appEvents ++
          [.controlChange c 101#7 m, .controlChange c 100#7 l, nrpnEvent c a b x y]) ∧
    (∀ a b vm vl, s.nrpn.get c = ⟨some a, some b, vm, some vl⟩ →
      ∃ t, After s [cc c 101#8 m, cc c 100#8 l, cc c 6#8 x, cc c 38#8 y] t ∧
        t.appEvents = s.appEvents ++
          [.controlChange c 101#7 m, .controlChange c 100#7 l, nrpnEvent c a b x vl]) ∧
    ((s.nrpn.get c).identifierMsb = none ∨ (s.nrpn.get c).identifierLsb = none →
      ∃ t, After s [cc c 101#8 m, cc c 100#8 l, cc c 6#8 x, cc c 38#8 y] t ∧
        t.appEvents = s.appEvents ++ [.controlChange c 101#7 m, .controlChange c 100#7 l] ∧
        t.evtStatuses = s.evtStatuses ++ [.ok, .ok, .nrpnIgnored, .nrpnIgnored])

/-- R25: the physical form of a field tells "unset" from every value and never lies in `0x80..0xFE`. -/
def Obligations.PhysicalFormIsFaithful : Prop :=
  physicalField none = 0xFF#8 ∧
  (∀ v : Data7, (physicalField (some v)).toNat = v.toNat) ∧
  (∀ f g : Option Data7, physicalField f = physicalField g → f = g) ∧
  (∀ f : Option Data7, ¬ (0x80 ≤ (physicalField f).toNat ∧ (physicalField f).toNat ≤ 0xFE))

/-! ## The codec -/

/-- R110: CODEC_DECODE, whole, wired or not: malformed first, then capacity, else the whole output, byte by byte as
the packed format says; nothing but the response changes. -/
def Obligations.CodecDecodeUnpacks : Prop :=
  ∀ (w : CtlWord) (cap : Capacity) (I : List Byte), w.toNat = 0x02000000 + cap.toNat →
    decode (.ctl w I) = .codecDecode cap I ∧
    ∀ s : State,
      ((∃ b ∈ I, 128 ≤ b.toNat) → exec (.codecDecode cap I) s = .next (responded s .malformedByte [])) ∧
      (AllSevenBit I → cap.toNat < I.length - (I.length + 7) / 8 →
        exec (.codecDecode cap I) s = .next (responded s .bufferOverflow [])) ∧
      (AllSevenBit I → I.length - (I.length + 7) / 8 ≤ cap.toNat →
        ∃ out, Unpacks I out ∧ exec (.codecDecode cap I) s = .next (responded s .ok out))

/-- R111: CODEC_ENCODE, whole, wired or not: capacity is the only error, else the whole output, byte by byte as the
packed format says; nothing but the response changes. -/
def Obligations.CodecEncodePacks : Prop :=
  ∀ (w : CtlWord) (cap : Capacity) (I : List Byte), w.toNat = 0x03000000 + cap.toNat →
    decode (.ctl w I) = .codecEncode cap I ∧
    ∀ s : State,
      (cap.toNat < I.length + (I.length + 6) / 7 →
        exec (.codecEncode cap I) s = .next (responded s .bufferOverflow [])) ∧
      (I.length + (I.length + 6) / 7 ≤ cap.toNat →
        ∃ out, Packs I out ∧ AllSevenBit out ∧ exec (.codecEncode cap I) s = .next (responded s .ok out))

/-- R113: the round trip, for every byte sequence and every capacity that holds it. -/
def Obligations.CodecRoundTrip : Prop :=
  ∀ (x : List Byte) (cap : Nat), x.length ≤ cap →
    ∃ y, encode7 x (encLen x.length) = .ok y ∧ decode7 y cap = .ok x

/-- R114: the converse holds exactly for canonical packed sequences: no lone trailing header, and every unused header
bit 0. Any other 7-bit sequence still decodes, and re-encodes to a different one. -/
def Obligations.CodecConverseHoldsExactlyForCanonicalInput : Prop :=
  ∀ (y : List Byte) (cap : Nat), AllSevenBit y → decLen y.length ≤ cap →
    ∃ x z, decode7 y cap = .ok x ∧ encode7 x (encLen (decLen y.length)) = .ok z ∧
      (z = y ↔ y.length % 8 ≠ 1 ∧ UnusedHeaderBitsZero y)

/-- R115: a successful decode has exactly `decLen(n)` bytes, and ends with the decoded bytes of the last group: for a
last group of `j` data bytes (`0 <= j <= 7`), its last `j` bytes are the last `j` bytes of the input, each with its bit of
that group's header as bit 7. -/
def Obligations.DecodedLengthIsExact : Prop :=
  ∀ (y : List Byte) (cap : Nat) (x : List Byte), decode7 y cap = .ok x →
    x.length = y.length - (y.length + 7) / 8 ∧
    ∀ q j, y.length = 8 * q + 1 + j → j ≤ 7 → x.length = 7 * q + j ∧
      ∀ k, k < j → ∃ hdr d b : Byte, y[8 * q]? = some hdr ∧ y[8 * q + 1 + k]? = some d ∧
        x[7 * q + k]? = some b ∧ b.toNat = d.toNat + 128 * (hdr.getLsbD k).toNat

/-- R112: an empty input gives an empty output at every capacity, in both directions. -/
def Obligations.EmptyInputGivesEmptyOutput : Prop :=
  ∀ cap : Nat, decode7 [] cap = .ok [] ∧ encode7 [] cap = .ok []

/-! ## SYSEX -/

/-- R185: SYSEX, whole: the checks in the order of R225, each with its status, its event and its record, and
nothing else changed. A frame that passes them is `MFR_ID`, a command byte, and the packed payload (R186). -/
def Obligations.SysexChecksAndDispatches : Prop :=
  ∀ (F : List Byte) (s : State),
    decode (.evt (.sx F)) = .sysex F ∧
    (s.wired = false → exec (.sysex F) s = .next (turnedAway s)) ∧
    (s.wired = true → s.cfg.maxSysexLen < F.length →
      exec (.sysex F) s = .next (presented s .sysexTooLong none (sxRec F.length none .sysexTooLong))) ∧
    (s.wired = true → F.length ≤ s.cfg.maxSysexLen →
      ((∃ b ∈ F, 128 ≤ b.toNat) →
        exec (.sysex F) s = .next (presented s .malformedByte none (sxRec F.length none .malformedByte))) ∧
      (AllSevenBit F → F.length < s.cfg.mfrId.length + 1 →
        exec (.sysex F) s = .next (presented s .sysexTooShort none (sxRec F.length none .sysexTooShort))) ∧
      (AllSevenBit F → s.cfg.mfrId.length + 1 ≤ F.length →
        F.take s.cfg.mfrId.length ≠ s.cfg.mfrId.map (BitVec.setWidth 8) →
        exec (.sysex F) s = .next (presented s .sysexForeign none (sxRec F.length none .sysexForeign))) ∧
      (∀ cmd rest, AllSevenBit F → F = s.cfg.mfrId.map (BitVec.setWidth 8) ++ cmd :: rest →
        (s.cfg.hasCmd (val7 cmd) = false →
          exec (.sysex F) s = .next (presented s .unrecognizedSysexCommand
            (some (.unrecognizedSysExCommand (val7 cmd)))
            (sxRec F.length (some (val7 cmd)) .unrecognizedSysexCommand))) ∧
        (s.cfg.hasCmd (val7 cmd) = true → s.cfg.decodeCapacity < rest.length - (rest.length + 7) / 8 →
          exec (.sysex F) s = .next (presented s .bufferOverflow none
            (sxRec F.length (some (val7 cmd)) .bufferOverflow))) ∧
        (s.cfg.hasCmd (val7 cmd) = true → rest.length - (rest.length + 7) / 8 ≤ s.cfg.decodeCapacity →
          ∃ payload, Unpacks rest payload ∧
            exec (.sysex F) s = .next (presented s .ok (some (.sysExCommand (val7 cmd) payload))
              (sxRec F.length (some (val7 cmd)) .ok)))))

/-- R87, the pseudo-operation `sysexcmd`: the frame it builds with Encode7 arrives as the command with exactly the
bytes that were packed, in every configuration that has the command and room for the frame and the payload. -/
def Obligations.SysexCommandArrivesWithItsData : Prop :=
  ∀ (s : State) (cmd : Data7) (data : List Byte), s.wired = true → s.cfg.hasCmd cmd = true →
    data.length ≤ s.cfg.decodeCapacity →
    s.cfg.mfrId.length + 1 + encLen data.length ≤ s.cfg.maxSysexLen →
    ∃ t, After s (assemble s.cfg (.sysexcmd cmd data)) t ∧
      t.appEvents = s.appEvents ++ [.sysExCommand cmd data] ∧ t.evtStatuses = s.evtStatuses ++ [.ok] ∧
      t.nrpn = s.nrpn

/-! ## The control port -/

/-- R200: BEGIN, whole: the word, the response, `wired`, and nothing else. -/
def Obligations.BeginWiresTheBlock : Prop :=
  decode (.ctl 0x01000000#32 []) = .begin ∧
  (∀ (cap : Capacity) (I : List Byte) (w : CtlWord), w.toNat = 0x01000000 + cap.toNat → cap ≠ 0#16 ∨ I ≠ [] →
    decode (.ctl w I) = .unsupportedCtl w I) ∧
  ∀ s : State, exec .begin s = .next { s with wired := true, outputs := s.outputs ++ [.ctl .ok []] }

/-- R201: any number of BEGINs leave the state that one leaves, and the NRPN bank is kept. -/
def Obligations.BeginIsIdempotent : Prop :=
  ∀ (s : State) (n : Nat), ∃ t u,
    After s (List.replicate (n + 1) (.op (.ctl 0x01000000#32 []))) t ∧
    After s [.op (.ctl 0x01000000#32 [])] u ∧
    t.wired = true ∧ t.wired = u.wired ∧ t.nrpn = s.nrpn ∧ t.nrpn = u.nrpn ∧ t.cfg = u.cfg ∧
    t.appEvents = s.appEvents

/-- R205: UNSUPPORTED_CTL, whole. -/
def Obligations.ReservedControlWordIsRefused : Prop :=
  (∀ (w : CtlWord) (I : List Byte) (s : State),
    exec (.unsupportedCtl w I) s = .next (responded s .unsupportedEvent [])) ∧
  decode (.ctl 0x00000000#32 []) = .unsupportedCtl 0x00000000#32 [] ∧
  decode (.ctl 0x01000001#32 []) = .unsupportedCtl 0x01000001#32 [] ∧
  decode (.ctl 0x04000000#32 []) = .unsupportedCtl 0x04000000#32 []

/-! ## The machine -/

/-- R60, R21: a step accepts the operation presented next, counts it, and runs what it decodes to; that operation is
well formed. -/
def Obligations.StepRunsTheDecodedOperation : Prop :=
  ∀ (s : State) (i : Instr) (p : PortOp) (rest : List Input), s.inputs = .op p :: rest → decode p = i →
    i.wf = true ∧ step s = exec i { s with inputs := rest, opIndex := s.opIndex + 1 }

/-- R235, R261: with nothing presented the block is idle and keeps its state. -/
def Obligations.IdleBlockKeepsItsState : Prop :=
  ∀ s : State, s.inputs = [] → step s = .next s

/-- R260, R262, R31: RESET puts every piece of state to its reset value from any state, keeps the configuration and
the outputs of the operations before it, and presents nothing. -/
def Obligations.ResetPutsEveryPieceOfStateToItsResetValue : Prop :=
  ∀ (s : State) (rest : List Input), s.inputs = .reset :: rest → ∃ t, step s = .next t ∧
    t.wired = false ∧ (∀ c, t.nrpn.get c = ⟨none, none, none, none⟩) ∧
    t.nrpn.isPerChannel = s.cfg.nrpnPerChannel ∧ t.opIndex = 0 ∧
    t.cfg = s.cfg ∧ t.outputs = s.outputs ∧ t.inputs = rest ∧ t.diagDraws = s.diagDraws

/-- R31: the state after reset. -/
def Obligations.ResetStateHoldsTheResetValues : Prop :=
  State.reset.wired = false ∧ (∀ c, State.reset.nrpn.get c = ⟨none, none, none, none⟩) ∧
  State.reset.opIndex = 0 ∧ State.reset.nrpn.sets.length = 16

/-- R220: the block never traps, halts or aborts: every operation, well formed or not, and every step, from every
state, answers a next state, and the operation returns exactly one status, on the port it belongs to; SYSEX never reads
past its frame (R53). -/
def Obligations.BlockNeverStops : Prop :=
  (∀ (i : Instr) (s : State), ∃ o, Presents i s o ∧ onEvt o = i.onEvtPort) ∧
  ∀ s : State, ∃ t, step s = .next t

/-- R236, R172: every operation completes: a run as long as what is presented takes it all, and adds exactly one
output record for each operation, in their order, on the port of the operation; RESET adds none. -/
def Obligations.EveryPresentedOperationCompletes : Prop :=
  ∀ s : State, ∃ t new, After s s.inputs t ∧ t.inputs = [] ∧ t.outputs = s.outputs ++ new ∧
    new.map onEvt = portsOf s.inputs

/-- The invariant of the block holds after reset, in the model's configuration and in every other (R31). -/
def Obligations.InvariantHoldsAtReset : Prop :=
  State.reset.Inv ∧ ∀ (cfg : Cfg) (run : List Input), (State.start cfg run).Inv

/-- Every step keeps the invariant of the block, from every state that has it. -/
def Obligations.EveryStepKeepsTheInvariant : Prop :=
  ∀ s t : State, s.Inv → step s = .next t → t.Inv

/-- R29, R132: in every state that a run reaches, in every configuration, every field set has a value only with a
complete identifier, and is in one of the four phases between operations. -/
def Obligations.ReachableFieldSetsAreInAPhase : Prop :=
  ∀ (cfg : Cfg) (run : List Input) (n : Nat) (t : State),
    Host.Core.run Sys2Proof.core n (State.start cfg run) = .next t → ∀ c,
      ((t.nrpn.get c).valueMsb ≠ none ∨ (t.nrpn.get c).valueLsb ≠ none →
        (t.nrpn.get c).identifierMsb ≠ none ∧ (t.nrpn.get c).identifierLsb ≠ none) ∧
      ((t.nrpn.get c).phase = some .idle ∨ (t.nrpn.get c).phase = some .identifierPartial ∨
        (t.nrpn.get c).phase = some .identifierComplete ∨ (t.nrpn.get c).phase = some .valuePartial)

/-- R275, R261: whatever is presented before BEGIN, however long, no event comes out, every event-port operation
returns `NOT_READY`, and the block stays unwired. The NRPN bank stays exactly as it was when the run holds no RESET,
and is the idle one when it holds a RESET (R260). -/
def Obligations.EventsBeforeBeginAreLost : Prop :=
  ∀ (s : State) (run : List Input), s.wired = false →
    (∀ p, Input.op p ∈ run → decode p ≠ .begin) →
    ∃ t n, After s run t ∧ t.wired = false ∧ t.appEvents = s.appEvents ∧
      t.evtStatuses = s.evtStatuses ++ List.replicate n .notReady ∧
      (Input.reset ∉ run → t.nrpn = s.nrpn) ∧
      (Input.reset ∈ run → t.nrpn = NrpnBank.idle s.cfg.nrpnPerChannel)

/-- R34: what each operation may write and what it may read. Writes: only BEGIN writes `wired`; only the four NRPN
operations write the bank, and of it the set of their channel; none writes the configuration. Reads: the answer of
a control-port operation depends on nothing, of a note, generic or unsupported operation on `wired`, of SYSEX on
`wired` and the configuration, of an NRPN operation, and what it writes, on `wired` and the set of its channel. RESET
writes `wired` and the whole bank, and reads none of either. -/
def Obligations.OperationsReadAndWriteWhatTheTableSays : Prop :=
  (∀ (i : Instr) (s t : State), exec i s = .next t →
    t.cfg = s.cfg ∧ (i ≠ .begin → t.wired = s.wired) ∧ (i = .begin → t.wired = true) ∧
    (nrpnChannel i = none → t.nrpn = s.nrpn) ∧
    (∀ c, nrpnChannel i = some c → ∃ f, t.nrpn = s.nrpn.set c f)) ∧
  (∀ (i : Instr) (s₁ s₂ : State), i.onEvtPort = false → SameAnswer i s₁ s₂) ∧
  (∀ (i : Instr) (s₁ s₂ : State), s₁.wired = s₂.wired → i.onEvtPort = true → nrpnChannel i = none →
    (∀ F, i ≠ .sysex F) → SameAnswer i s₁ s₂) ∧
  (∀ (F : List Byte) (s₁ s₂ : State), s₁.wired = s₂.wired → s₁.cfg = s₂.cfg →
    SameAnswer (.sysex F) s₁ s₂) ∧
  (∀ (i : Instr) (c : Channel) (s₁ s₂ : State), nrpnChannel i = some c → s₁.wired = s₂.wired →
    s₁.nrpn.get c = s₂.nrpn.get c → SameAnswer i s₁ s₂ ∧
    ∀ t₁ t₂, exec i s₁ = .next t₁ → exec i s₂ = .next t₂ → t₁.nrpn.get c = t₂.nrpn.get c) ∧
  (∀ s₁ s₂ : State, s₁.cfg = s₂.cfg → s₁.applyReset.wired = s₂.applyReset.wired ∧
    s₁.applyReset.nrpn = s₂.applyReset.nrpn ∧ s₁.applyReset.cfg = s₁.cfg)

/-- R222: an operation whose status is other than `OK`, `NRPN_PENDING` and `NRPN_IGNORED` has changed nothing: all it
leaves is its output (and the count of draws), with no event but the one of `UNRECOGNIZED_SYSEX_COMMAND`. -/
def Obligations.ErrorStatusesLeaveTheStateAlone : Prop :=
  ∀ (i : Instr) (s t : State), exec i s = .next t →
    (∀ st ev d, t.outputs = s.outputs ++ [.evt st ev d] → st ≠ .ok → st ≠ .nrpnPending → st ≠ .nrpnIgnored →
      t = { s with outputs := t.outputs, diagDraws := t.diagDraws } ∧
      (st ≠ .unrecognizedSysexCommand → ev = none) ∧
      (st = .unrecognizedSysexCommand → ∃ cmd, ev = some (.unrecognizedSysExCommand cmd))) ∧
    (∀ st out, t.outputs = s.outputs ++ [.ctl st out] → st ≠ .ok →
      t = { s with outputs := t.outputs } ∧ out = [])

/-- R208: the free draws of diagnostic delivery influence nothing: two runs of the same inputs from states that
differ only in the draws have the same observation, step by step. That the observation's statuses are those of
`EVT_STATUS`, and the form of the draw, are the model's reading and choice (log entries 20 and 3). -/
def Obligations.DiagnosticDeliveryInfluencesNothing : Prop :=
  ∀ (s : State) (n k : Nat), ∃ t₁ t₂,
    Host.Core.run Sys2Proof.core k s = .next t₁ ∧
    Host.Core.run Sys2Proof.core k { s with diagDraws := n } = .next t₂ ∧
    t₁.observe = t₂.observe ∧ t₁.cfg = t₂.cfg ∧ t₁.inputs = t₂.inputs ∧ t₁.opIndex = t₂.opIndex

/-- R60, R226: the order in which the two ports are served, which the spec leaves open, cannot be seen when the
control-port operation is not BEGIN: both orders give the same observation. It rests on the model's reading that the
observation's statuses are those of `EVT_STATUS` (log entry 20), under whose other reading it would not hold; that the
order is an input is the model's choice (log entry 1). -/
def Obligations.PortOrderIsInvisibleExceptForBegin : Prop :=
  ∀ (s : State) (m : EvtMsg) (w : CtlWord) (I : List Byte), decode (.ctl w I) ≠ .begin →
    ∃ t₁ t₂, After s [.op (.evt m), .op (.ctl w I)] t₁ ∧ After s [.op (.ctl w I), .op (.evt m)] t₂ ∧
      t₁.observe = t₂.observe ∧ t₁.cfg = t₂.cfg ∧ t₁.diagDraws = t₂.diagDraws

/-- R221: the status codes: the table's values, all different, none above `0x0B`. -/
def Obligations.StatusCodesAreTheTables : Prop :=
  [Status.ok, .nrpnPending, .nrpnIgnored, .malformedByte, .bufferOverflow, .unrecognizedSysexCommand,
    .sysexTooShort, .sysexTooLong, .sysexForeign, .unsupportedEvent, .notReady, .nrpnDiscarded].map Status.code =
    (List.range 12).map (BitVec.ofNat 8) ∧
  (∀ s t : Status, s.code = t.code → s = t) ∧ ∀ s : Status, s.code.toNat ≤ 0x0B

/-- R26: a configuration that breaks a legal value is refused; a legal one gives the block its registers, read back
under their names. -/
def Obligations.IllegalConfigurationIsRefused : Prop :=
  ∀ r : RawCfg,
    (r.mfrId.length = 0 ∨ r.maxSysexLen < r.mfrId.length + 1 → r.configure = none) ∧
    (1 ≤ r.mfrId.length → r.mfrId.length + 1 ≤ r.maxSysexLen → ∃ c, r.configure = some c ∧
      c.nrpnPerChannel = r.nrpnPerChannel ∧ c.mfrId = r.mfrId ∧ c.prefixLen = r.mfrId.length ∧
      c.cmds = r.cmds ∧ c.maxSysexLen = r.maxSysexLen ∧ c.decodeCapacity = r.decodeCapacity)
end

