-- ==== Sys2Proof/Laws/State.lean ====
section
/-! SUPPORT. One lemma per field for each update of State, true by `rfl`, and what each update appends to the
outputs. -/

namespace Sys2Proof.Machine
variable (s : State)

/-! ## endEvt -/

section
variable (st : Status) (ev : Option AppEvent) (r : Option DiagRecord)

@[simp] theorem State.endEvt_wired : (s.endEvt st ev r).wired = s.wired := by cases r <;> rfl
@[simp] theorem State.endEvt_nrpn : (s.endEvt st ev r).nrpn = s.nrpn := by cases r <;> rfl
@[simp] theorem State.endEvt_cfg : (s.endEvt st ev r).cfg = s.cfg := by cases r <;> rfl
@[simp] theorem State.endEvt_inputs : (s.endEvt st ev r).inputs = s.inputs := by cases r <;> rfl
@[simp] theorem State.endEvt_opIndex : (s.endEvt st ev r).opIndex = s.opIndex := by cases r <;> rfl

@[simp] theorem State.endEvt_outputs : (s.endEvt st ev r).outputs =
    s.outputs ++ [.evt st ev (r.map fun d => ⟨d, Config.freeDiagDelivered s.diagDraws⟩)] := by
  cases r <;> rfl

@[simp] theorem State.endEvt_diagDraws :
    (s.endEvt st ev r).diagDraws = s.diagDraws + r.isSome.toNat := by cases r <;> rfl

end

/-! ## endCtl and respond -/

section
variable (st : Status) (out : List Byte)

@[simp] theorem State.endCtl_wired : (s.endCtl st out).wired = s.wired := rfl
@[simp] theorem State.endCtl_nrpn : (s.endCtl st out).nrpn = s.nrpn := rfl
@[simp] theorem State.endCtl_cfg : (s.endCtl st out).cfg = s.cfg := rfl
@[simp] theorem State.endCtl_inputs : (s.endCtl st out).inputs = s.inputs := rfl
@[simp] theorem State.endCtl_opIndex : (s.endCtl st out).opIndex = s.opIndex := rfl
@[simp] theorem State.endCtl_diagDraws : (s.endCtl st out).diagDraws = s.diagDraws := rfl
@[simp] theorem State.endCtl_outputs : (s.endCtl st out).outputs = s.outputs ++ [.ctl st out] := rfl

@[simp] theorem State.respond_ok : s.respond (.ok out) = s.endCtl .ok out := rfl
@[simp] theorem State.respond_err : s.respond (.err st) = s.endCtl st [] := rfl

end

/-! ## endSysex and endNrpn are endEvt -/

section
variable (op : EvtOpName) (c : Channel) (S d1 d2 : Byte) (r : NrpnResult)

@[simp] theorem State.endNrpn_wired : (s.endNrpn op c S d1 d2 r).wired = s.wired := rfl
@[simp] theorem State.endNrpn_nrpn : (s.endNrpn op c S d1 d2 r).nrpn = s.nrpn.set c r.fields := rfl
@[simp] theorem State.endNrpn_cfg : (s.endNrpn op c S d1 d2 r).cfg = s.cfg := rfl
@[simp] theorem State.endNrpn_inputs : (s.endNrpn op c S d1 d2 r).inputs = s.inputs := rfl
@[simp] theorem State.endNrpn_opIndex : (s.endNrpn op c S d1 d2 r).opIndex = s.opIndex := rfl
@[simp] theorem State.endNrpn_diagDraws :
    (s.endNrpn op c S d1 d2 r).diagDraws = s.diagDraws + 1 := rfl
@[simp] theorem State.endNrpn_outputs : (s.endNrpn op c S d1 d2 r).outputs = s.outputs ++
    [.evt r.status r.event (some ⟨cvRecord op S d1 d2 r.status, Config.freeDiagDelivered s.diagDraws⟩)] := rfl

end

theorem State.endSysex_eq (L : Nat) (cmd : Option Data7) (st : Status) (ev : Option AppEvent) :
    s.endSysex L cmd st ev = s.endEvt st ev (some (sysexRecord L cmd st)) := rfl

/-! ## accept and applyReset -/

section
variable (rest : List Input)

@[simp] theorem State.accept_wired : (s.accept rest).wired = s.wired := rfl
@[simp] theorem State.accept_nrpn : (s.accept rest).nrpn = s.nrpn := rfl
@[simp] theorem State.accept_cfg : (s.accept rest).cfg = s.cfg := rfl
@[simp] theorem State.accept_inputs : (s.accept rest).inputs = rest := rfl
@[simp] theorem State.accept_outputs : (s.accept rest).outputs = s.outputs := rfl
@[simp] theorem State.accept_opIndex : (s.accept rest).opIndex = s.opIndex + 1 := rfl
@[simp] theorem State.accept_diagDraws : (s.accept rest).diagDraws = s.diagDraws := rfl

@[simp] theorem State.applyReset_wired : s.applyReset.wired = false := rfl
@[simp] theorem State.applyReset_nrpn : s.applyReset.nrpn = NrpnBank.idle s.cfg.nrpnPerChannel := rfl
@[simp] theorem State.applyReset_cfg : s.applyReset.cfg = s.cfg := rfl
@[simp] theorem State.applyReset_inputs : s.applyReset.inputs = s.inputs := rfl
@[simp] theorem State.applyReset_outputs : s.applyReset.outputs = s.outputs := rfl
@[simp] theorem State.applyReset_opIndex : s.applyReset.opIndex = 0 := rfl
@[simp] theorem State.applyReset_diagDraws : s.applyReset.diagDraws = s.diagDraws := rfl

end

/-! ## start -/

section
variable (cfg : Cfg) (run : List Input)

@[simp] theorem State.start_wired : (State.start cfg run).wired = false := rfl
@[simp] theorem State.start_nrpn : (State.start cfg run).nrpn = NrpnBank.idle cfg.nrpnPerChannel := rfl
@[simp] theorem State.start_cfg : (State.start cfg run).cfg = cfg := rfl
@[simp] theorem State.start_inputs : (State.start cfg run).inputs = run := rfl
@[simp] theorem State.start_outputs : (State.start cfg run).outputs = [] := rfl

end

end Sys2Proof.Machine
end

