-- ==== Sys2Proof/Laws/Ops.lean ====
section
/-! SUPPORT. What each shared operation can do, said once: the bank (R24), the prologue (R171), the plain event
operations, and the NRPN transitions (R137 to R143). -/

namespace Sys2Proof.Machine

/-! ## The bank -/

@[simp] theorem NrpnBank.get_shared (f : NrpnFields) (c : Channel) : (NrpnBank.shared f).get c = f := rfl

@[simp] theorem NrpnBank.get_idle (perChannel : Bool) (c : Channel) :
    (NrpnBank.idle perChannel).get c = NrpnFields.idle := by
  cases perChannel <;> simp [NrpnBank.idle, NrpnBank.get]

/-- What a write stored is what the same channel reads. -/
@[simp] theorem NrpnBank.get_set_self (b : NrpnBank) (c : Channel) (f : NrpnFields) :
    (b.set c f).get c = f := by
  cases b <;> simp [NrpnBank.set, NrpnBank.get]

/-- Writing back what a channel reads changes nothing. -/
@[simp] theorem NrpnBank.set_get_self (b : NrpnBank) (c : Channel) : b.set c (b.get c) = b := by
  cases b <;> simp [NrpnBank.set, NrpnBank.get]

@[simp] theorem NrpnBank.set_set_self (b : NrpnBank) (c : Channel) (f g : NrpnFields) :
    (b.set c f).set c g = b.set c g := by
  cases b <;> simp [NrpnBank.set]

/-- What a channel reads after a write on any channel: what was written, or what it read before. -/
theorem NrpnBank.get_set_cases (b : NrpnBank) (c c' : Channel) (f : NrpnFields) :
    (b.set c f).get c' = f ∨ (b.set c f).get c' = b.get c' := by
  cases b with
  | shared g => exact .inl rfl
  | perChannel v =>
    by_cases h : c = c'
    · exact .inl (by simp [NrpnBank.set, NrpnBank.get, h])
    · refine .inr ?_
      have : c.toNat ≠ c'.toNat := fun e => h (BitVec.eq_of_toNat_eq e)
      simp [NrpnBank.set, NrpnBank.get, this]

@[simp] theorem NrpnBank.isPerChannel_set (b : NrpnBank) (c : Channel) (f : NrpnFields) :
    (b.set c f).isPerChannel = b.isPerChannel := by
  cases b <;> rfl

@[simp] theorem NrpnBank.isPerChannel_idle (p : Bool) : (NrpnBank.idle p).isPerChannel = p := by
  cases p <;> rfl

/-- What a channel reads is one of the sets the bank holds. -/
theorem NrpnBank.get_mem_sets (b : NrpnBank) (c : Channel) : b.get c ∈ b.sets := by
  cases b with
  | shared g => exact List.mem_singleton.mpr rfl
  | perChannel v =>
    simp [NrpnBank.get, NrpnBank.sets]

/-- A set of the bank after a write was there before or is the one written. -/
theorem NrpnBank.mem_sets_set {b : NrpnBank} {c : Channel} {f g : NrpnFields}
    (h : g ∈ (b.set c f).sets) : g = f ∨ g ∈ b.sets := by
  cases b with
  | shared f₀ => exact .inl (List.mem_singleton.mp h)
  | perChannel v =>
    obtain ⟨i, hi, rfl⟩ := Vector.getElem_of_mem (by simpa [NrpnBank.set, NrpnBank.sets] using h)
    rw [Vector.getElem_set]
    split
    · exact .inl rfl
    · exact .inr (by simp [NrpnBank.sets])

/-- Every set of an idle bank is idle. -/
theorem NrpnBank.mem_sets_idle {p : Bool} {f : NrpnFields} (h : f ∈ (NrpnBank.idle p).sets) :
    f = NrpnFields.idle := by
  cases p <;> simp_all [NrpnBank.idle, NrpnBank.sets]

/-! ## The prologue -/

theorem readyPrologue_of_unwired {s : State} (h : s.wired = false) :
    readyPrologue s = some (s.endEvt .notReady none none) := by
  simp [readyPrologue, h]

theorem readyPrologue_of_wired {s : State} (h : s.wired = true) : readyPrologue s = none := by
  simp [readyPrologue, h]

/-- The three things the prologue of a `CV24` operation can do, with what each says of the operands. -/
theorem cv24Prologue_cases (op : EvtOpName) (S d1 d2 : Byte) (s : State) :
    (s.wired = false ∧ cv24Prologue op S d1 d2 s = some (s.endEvt .notReady none none)) ∨
    (s.wired = true ∧ (highByte d1 || highByte d2) = true ∧ cv24Prologue op S d1 d2 s =
      some (s.endEvt .malformedByte none (some (cvRecord op S d1 d2 .malformedByte)))) ∨
    (s.wired = true ∧ (highByte d1 || highByte d2) = false ∧ cv24Prologue op S d1 d2 s = none) := by
  cases hw : s.wired
  · exact .inl ⟨rfl, by simp [cv24Prologue, readyPrologue_of_unwired hw]⟩
  · cases hb : highByte d1 || highByte d2
    · exact .inr (.inr ⟨rfl, rfl, by simp [cv24Prologue, readyPrologue_of_wired hw, hb]⟩)
    · exact .inr (.inl ⟨rfl, rfl, by simp [cv24Prologue, readyPrologue_of_wired hw, hb]⟩)

/-- Everything a plain event operation can do: it presents one status and changes nothing else. -/
theorem emitCv24_cases (op : EvtOpName) (S d1 d2 : Byte) (ev : AppEvent) (s : State) :
    (s.wired = false ∧ emitCv24 op S d1 d2 ev s = .next (s.endEvt .notReady none none)) ∨
    (s.wired = true ∧ (highByte d1 || highByte d2) = true ∧ emitCv24 op S d1 d2 ev s =
      .next (s.endEvt .malformedByte none (some (cvRecord op S d1 d2 .malformedByte)))) ∨
    (s.wired = true ∧ (highByte d1 || highByte d2) = false ∧ emitCv24 op S d1 d2 ev s =
      .next (s.endEvt .ok (some ev) (some (cvRecord op S d1 d2 .ok)))) := by
  obtain ⟨hw, h⟩ | ⟨hw, hb, h⟩ | ⟨hw, hb, h⟩ := cv24Prologue_cases op S d1 d2 s
  · exact .inl ⟨hw, by simp only [emitCv24, h]⟩
  · exact .inr (.inl ⟨hw, hb, by simp only [emitCv24, h]⟩)
  · exact .inr (.inr ⟨hw, hb, by simp only [emitCv24, h]⟩)

/-- Everything an NRPN operation can do: the prologue ends it and changes nothing, or it writes the set of its channel
and answers as `write` says. -/
theorem nrpnCv24_cases (op : EvtOpName) (c : Channel) (d1 d2 : Byte) (write : NrpnFields → NrpnResult) (s : State) :
    (s.wired = false ∧ nrpnCv24 op c d1 d2 write s = .next (s.endEvt .notReady none none)) ∨
    (s.wired = true ∧ (highByte d1 || highByte d2) = true ∧ nrpnCv24 op c d1 d2 write s = .next
      (s.endEvt .malformedByte none (some (cvRecord op (statusByte 0xB#4 c) d1 d2 .malformedByte)))) ∨
    (s.wired = true ∧ (highByte d1 || highByte d2) = false ∧ nrpnCv24 op c d1 d2 write s =
      .next (s.endNrpn op c (statusByte 0xB#4 c) d1 d2 (write (s.nrpn.get c)))) := by
  obtain ⟨hw, h⟩ | ⟨hw, hb, h⟩ | ⟨hw, hb, h⟩ := cv24Prologue_cases op (statusByte 0xB#4 c) d1 d2 s
  · exact .inl ⟨hw, by simp only [nrpnCv24, h]⟩
  · exact .inr (.inl ⟨hw, hb, by simp only [nrpnCv24, h]⟩)
  · exact .inr (.inr ⟨hw, hb, by simp only [nrpnCv24, h]⟩)

/-! ## Data bytes -/

/-- A data byte has bit 7 set exactly when it is 128 or more. -/
theorem highByte_iff (b : Byte) : highByte b = true ↔ 128 ≤ b.toNat := by
  rw [highByte, BitVec.msb_eq_decide]; simp

theorem highByte_eq_false_iff (b : Byte) : highByte b = false ↔ b.toNat < 128 := by
  rw [← Bool.not_eq_true, highByte_iff]; omega

/-- The 7-bit operand of a data byte below 128 is its value. -/
theorem data7_toNat {b : Byte} (h : b.toNat < 128) : (data7 b).toNat = b.toNat := by
  simp only [data7, BitVec.toNat_setWidth]; omega

/-- A 7-bit value carried as a data byte comes back as the operand, and passes the prologue. -/
@[simp] theorem data7_setWidth (v : Data7) : data7 (v.setWidth 8) = v := by
  revert v; decide

@[simp] theorem highByte_setWidth (v : Data7) : highByte (v.setWidth 8) = false := by
  revert v; decide

/-! ## The merge and the NRPN transitions -/

/-- The merge of two 7-bit halves always succeeds, and is the MSB half followed by the LSB half. -/
theorem merge14_halves (msb lsb : Data7) : merge14 msb.toNat lsb.toNat = some (msb ++ lsb) := by
  have hm := msb.isLt
  have hl := lsb.isLt
  rw [merge14, if_pos ⟨by omega, by omega⟩]
  rw [← BitVec.toNat_append msb lsb]
  exact congrArg some ((BitVec.ofNat_toNat 14 (msb ++ lsb)).trans (BitVec.setWidth_eq _))

/-- Everything `tryComplete` can do: with all four fields set it emits the event and clears the value fields; else it
leaves the set and is pending. -/
theorem tryComplete_cases (f : NrpnFields) (c : Channel) :
    (∃ a b x y, f = ⟨some a, some b, some x, some y⟩ ∧ tryComplete f c =
      ⟨⟨some a, some b, none, none⟩, .ok, some (.nrpnParameterChange c (a ++ b) (x ++ y))⟩) ∨
    ((f.identifierMsb = none ∨ f.identifierLsb = none ∨ f.valueMsb = none ∨ f.valueLsb = none) ∧
      tryComplete f c = ⟨f, .nrpnPending, none⟩) := by
  obtain ⟨_ | a, _ | b, _ | x, _ | y⟩ := f
  case some.some.some.some => exact .inl ⟨a, b, x, y, rfl, by simp [tryComplete, merge14_halves]⟩
  all_goals exact .inr ⟨by simp, by simp [tryComplete]⟩

/-- Everything a value MSB write can do (R142). -/
theorem writeValueMsb_cases (f : NrpnFields) (c : Channel) (v : Data7) :
    ((f.identifierMsb = none ∨ f.identifierLsb = none) ∧ writeValueMsb f c v = ⟨f, .nrpnIgnored, none⟩) ∨
    (∃ a b x y, f = ⟨some a, some b, x, some y⟩ ∧ writeValueMsb f c v =
      ⟨⟨some a, some b, none, none⟩, .ok, some (.nrpnParameterChange c (a ++ b) (v ++ y))⟩) ∨
    (∃ a b x, f = ⟨some a, some b, x, none⟩ ∧ writeValueMsb f c v =
      ⟨⟨some a, some b, some v, none⟩, .nrpnPending, none⟩) := by
  obtain ⟨_ | a, _ | b, x, _ | y⟩ := f
  case some.some.some => exact .inr (.inl ⟨a, b, x, y, rfl, by simp [writeValueMsb, tryComplete, merge14_halves]⟩)
  case some.some.none => exact .inr (.inr ⟨a, b, x, rfl, by simp [writeValueMsb, tryComplete]⟩)
  all_goals exact .inl ⟨by simp, by simp [writeValueMsb]⟩

/-- Everything a value LSB write can do (R143). -/
theorem writeValueLsb_cases (f : NrpnFields) (c : Channel) (v : Data7) :
    ((f.identifierMsb = none ∨ f.identifierLsb = none) ∧ writeValueLsb f c v = ⟨f, .nrpnIgnored, none⟩) ∨
    (∃ a b x y, f = ⟨some a, some b, some x, y⟩ ∧ writeValueLsb f c v =
      ⟨⟨some a, some b, none, none⟩, .ok, some (.nrpnParameterChange c (a ++ b) (x ++ v))⟩) ∨
    (∃ a b y, f = ⟨some a, some b, none, y⟩ ∧ writeValueLsb f c v =
      ⟨⟨some a, some b, none, some v⟩, .nrpnPending, none⟩) := by
  obtain ⟨_ | a, _ | b, _ | x, y⟩ := f
  case some.some.some => exact .inr (.inl ⟨a, b, x, y, rfl, by simp [writeValueLsb, tryComplete, merge14_halves]⟩)
  case some.some.none => exact .inr (.inr ⟨a, b, y, rfl, by simp [writeValueLsb, tryComplete]⟩)
  all_goals exact .inl ⟨by simp, by simp [writeValueLsb]⟩

end Sys2Proof.Machine
end

