-- ==== Sys2Proof/Laws/Codec.lean ====
section
/-! SUPPORT. The codec by groups: what one group packs and unpacks to, and the lengths. -/

namespace Sys2Proof.Machine

/-! ## Packing -/

@[simp] theorem packGroup_length (chunk : List Byte) : (packGroup chunk).length = chunk.length + 1 := by
  simp [packGroup]

/-- The length of `groups` packed groups, when that many groups hold the whole input. -/
theorem packGroups_length (groups : Nat) (l : List Byte) (h : groups = ceilDiv l.length 7) :
    (packGroups groups l).length = encLen l.length := by
  induction groups generalizing l with
  | zero => simp only [ceilDiv] at h; simp only [packGroups, encLen, ceilDiv, List.length_nil]; omega
  | succ g ih =>
    simp only [ceilDiv] at h
    rw [packGroups, List.length_append, ih _ (by simp only [ceilDiv, List.length_drop]; omega)]
    simp only [packGroup_length, List.length_take, List.length_drop, encLen, ceilDiv]
    omega

/-- Stripping the high bit leaves the value modulo 128. -/
theorem stripHigh_toNat (b : Byte) : (stripHigh b).toNat = b.toNat % 128 := by
  revert b; decide

theorem highByte_stripHigh (b : Byte) : highByte (stripHigh b) = false := by
  rw [highByte_eq_false_iff, stripHigh_toNat]; omega

/-- A header bit is bit 7 of the group's byte at its position. -/
theorem packHeader_getLsbD (l : List Byte) (k i : Nat) :
    (packHeader k l).getLsbD i = (decide (i < 8) && decide (k ≤ i) && (l[i - k]?.any highByte)) := by
  induction l generalizing k with
  | nil => simp [packHeader]
  | cons b rest ih =>
    rw [packHeader, BitVec.getLsbD_or, ih (k + 1), BitVec.getLsbD_shiftLeft]
    by_cases h8 : i < 8
    · rcases Nat.lt_trichotomy i k with h | h | h
      · simp [h8, h, show ¬ k ≤ i by omega, show ¬ k + 1 ≤ i by omega]
      · subst h
        simp [h8, highByte, show ¬ i + 1 ≤ i by omega]
      · have e : i - k = (i - (k + 1)) + 1 := by omega
        rw [e, List.getElem?_cons_succ]
        simp [h8, show ¬ i < k by omega, show k ≤ i by omega, show k + 1 ≤ i by omega]
    · simp [h8]

/-! ## Unpacking -/

/-- Within a group, the loop restores data bytes one by one. -/
theorem unpackLoop_data (hdr : Byte) (k : Nat) (data rest : List Byte) (h : k + data.length ≤ 7) :
    unpackLoop hdr k (data ++ rest) =
      data.mapIdx (fun j b => restoreHigh hdr (k + j) b) ++ unpackLoop hdr (k + data.length) rest := by
  induction data generalizing k with
  | nil => simp
  | cons b data ih =>
    simp only [List.length_cons] at h
    rw [List.cons_append, unpackLoop, if_neg (by omega), ih (k + 1) (by omega), List.mapIdx_cons]
    simp only [Nat.add_zero, List.cons_append, List.length_cons]
    congr 2
    · apply congrArg (List.mapIdx · data); funext j b; congr 1; omega
    · congr 1; omega

/-- With the group full, the loop reads the next group's header and outputs nothing for it. -/
theorem unpackLoop_header (hdr b : Byte) (rest : List Byte) :
    unpackLoop hdr 7 (b :: rest) = unpackLoop b 0 rest := by
  simp [unpackLoop]

/-- Whether the group before it was full is all the loop remembers at a group boundary. -/
theorem unpackLoop_full (hdr hdr' : Byte) (l : List Byte) :
    unpackLoop hdr 7 l = unpackLoop hdr' 7 l := by
  cases l <;> simp [unpackLoop]

/-- The length of what the loop outputs from position `k` of a group. -/
theorem unpackLoop_length (hdr : Byte) (k : Nat) (l : List Byte) (hk : k ≤ 7) :
    (unpackLoop hdr k l).length = l.length - (l.length + k) / 8 := by
  induction l generalizing hdr k with
  | nil => simp [unpackLoop]
  | cons b rest ih =>
    rw [unpackLoop]
    split
    · rw [ih b 0 (by omega)]; simp only [List.length_cons]; omega
    · rw [List.length_cons, ih hdr (k + 1) (by omega)]; simp only [List.length_cons]; omega

/-- A successful decode has exactly `decLen` bytes. -/
theorem unpackLoop_length_eq_decLen (hdr : Byte) (l : List Byte) :
    (unpackLoop hdr 7 l).length = decLen l.length := by
  rw [unpackLoop_length hdr 7 l (Nat.le_refl 7)]; rfl

/-- Everything `Decode7` can do. -/
theorem decode7_cases (l : List Byte) (cap : Nat) :
    (l.any highByte = true ∧ decode7 l cap = .err .malformedByte) ∨
    (l.any highByte = false ∧ cap < decLen l.length ∧ decode7 l cap = .err .bufferOverflow) ∨
    (l.any highByte = false ∧ decLen l.length ≤ cap ∧ decode7 l cap = .ok (unpackLoop 0#8 7 l)) := by
  cases hm : l.any highByte
  · by_cases hc : decLen l.length > cap
    · exact .inr (.inl ⟨rfl, hc, by simp only [decode7, hm, Bool.false_eq_true, ↓reduceIte, if_pos hc]⟩)
    · exact .inr (.inr ⟨rfl, by omega, by simp only [decode7, hm, Bool.false_eq_true, ↓reduceIte, if_neg hc]⟩)
  · exact .inl ⟨rfl, by simp [decode7, hm]⟩

/-- Everything `Encode7` can do. -/
theorem encode7_cases (l : List Byte) (cap : Nat) :
    (cap < encLen l.length ∧ encode7 l cap = .err .bufferOverflow) ∨
    (encLen l.length ≤ cap ∧ encode7 l cap = .ok (packGroups (ceilDiv l.length 7) l)) := by
  by_cases h : encLen l.length > cap
  · exact .inl ⟨h, by rw [encode7, if_pos h]⟩
  · exact .inr ⟨by omega, by rw [encode7, if_neg h]⟩

end Sys2Proof.Machine
end

