-- ==== Sys2Proof/Laws/Decode.lean ====
section
/-! SUPPORT. The fields of a status byte and of a control word, as numbers, and how a word is put together from
them. -/

namespace Sys2Proof

/-! ## Status bytes (R71) -/

@[simp] theorem statusByte_fields (S : Byte) : statusByte (statusKind S) (statusChannel S) = S := by
  revert S; decide

@[simp] theorem statusKind_statusByte : ∀ k c : BitVec 4, statusKind (statusByte k c) = k := by decide

@[simp] theorem statusChannel_statusByte : ∀ k c : BitVec 4, statusChannel (statusByte k c) = c := by decide

theorem statusKind_toNat (S : Byte) : (statusKind S).toNat = S.toNat / 16 := by
  revert S; decide

theorem statusKind_eq_iff (S : Byte) : ∀ k : BitVec 4, statusKind S = k ↔ S.toNat / 16 = k.toNat := by
  revert S; decide

theorem statusChannel_eq_ofNat (S : Byte) : statusChannel S = BitVec.ofNat 4 S.toNat := by
  revert S; decide

/-- The status byte of a Control Change, as a mask. -/
theorem or_channel_eq_statusByte : ∀ c : Channel, 0xB0#8 ||| c.setWidth 8 = statusByte 0xB#4 c := by decide

/-- The side condition of UNSUPPORTED, in terms of the kind. -/
theorem kindSupported_eq (S : Byte) : kindSupported S =
    (decide (statusKind S = 0x8#4) || decide (statusKind S = 0x9#4) || decide (statusKind S = 0xB#4)) := rfl

/-! ## Control words (R77) -/

/-- A concatenation as a number: the left part above the right one. -/
theorem toNat_append_eq {n m : Nat} (x : BitVec n) (y : BitVec m) :
    (x ++ y).toNat = x.toNat * 2 ^ m + y.toNat := by
  rw [BitVec.toNat_append, Nat.shiftLeft_eq, Nat.mul_comm, Nat.two_pow_add_eq_or_of_lt y.isLt]

theorem ctlOpc_toNat (w : CtlWord) : (ctlOpc w).toNat = w.toNat / 2 ^ 24 := by
  have := w.isLt
  simp only [ctlOpc, BitVec.extractLsb'_toNat, Nat.shiftRight_eq_div_pow]; omega

theorem ctlRsv_toNat (w : CtlWord) : (ctlRsv w).toNat = w.toNat / 2 ^ 16 % 2 ^ 8 := by
  simp [ctlRsv, BitVec.extractLsb'_toNat, Nat.shiftRight_eq_div_pow]

theorem ctlCap_toNat (w : CtlWord) : (ctlCap w).toNat = w.toNat % 2 ^ 16 := by
  simp [ctlCap, BitVec.extractLsb'_toNat]

theorem ctlWord_toNat (opc rsv : Byte) (cap : Capacity) :
    (ctlWord opc rsv cap).toNat = opc.toNat * 2 ^ 24 + rsv.toNat * 2 ^ 16 + cap.toNat := by
  rw [ctlWord, toNat_append_eq, toNat_append_eq]; omega

@[simp] theorem ctlWord_fields (w : CtlWord) : ctlWord (ctlOpc w) (ctlRsv w) (ctlCap w) = w := by
  apply BitVec.eq_of_toNat_eq
  rw [ctlWord_toNat, ctlOpc_toNat, ctlRsv_toNat, ctlCap_toNat]; omega

@[simp] theorem ctlOpc_ctlWord (opc rsv : Byte) (cap : Capacity) : ctlOpc (ctlWord opc rsv cap) = opc := by
  have := rsv.isLt
  have := cap.isLt
  apply BitVec.eq_of_toNat_eq
  rw [ctlOpc_toNat, ctlWord_toNat]; omega

@[simp] theorem ctlRsv_ctlWord (opc rsv : Byte) (cap : Capacity) : ctlRsv (ctlWord opc rsv cap) = rsv := by
  have := rsv.isLt
  have := cap.isLt
  apply BitVec.eq_of_toNat_eq
  rw [ctlRsv_toNat, ctlWord_toNat]; omega

@[simp] theorem ctlCap_ctlWord (opc rsv : Byte) (cap : Capacity) : ctlCap (ctlWord opc rsv cap) = cap := by
  have := rsv.isLt
  have := cap.isLt
  apply BitVec.eq_of_toNat_eq
  rw [ctlCap_toNat, ctlWord_toNat]; omega

end Sys2Proof
end

