-- ==== Sys2Proof/Laws/Exec.lean ====
section
/-! SUPPORT. What a meaning can do, said once: the forms of the next state (R220, R222), SYSEX by the check that ends
it (R225), and one step of a run. -/

namespace Sys2Proof.Machine

/-! ## SYSEX -/

/-- A wired SYSEX ends with one status: refused before its command byte is read, or dispatched on it. -/
theorem execSysex_cases (F : List Byte) (s : State) :
    (s.wired = false ∧ execSysex F s = .next (s.endEvt .notReady none none)) ∨
    (s.wired = true ∧ ∃ st, (st = .sysexTooLong ∨ st = .malformedByte ∨ st = .sysexTooShort ∨ st = .sysexForeign) ∧
      execSysex F s = .next (s.endSysex F.length none st none)) ∨
    (s.wired = true ∧ F.any highByte = false ∧ ∃ b, F[s.cfg.prefixLen]? = some b ∧
      ((s.cfg.hasCmd (data7 b) = false ∧ execSysex F s = .next (s.endSysex F.length (some (data7 b))
          .unrecognizedSysexCommand (some (.unrecognizedSysExCommand (data7 b))))) ∨
       (s.cfg.hasCmd (data7 b) = true ∧ execSysex F s = .next (s.endSysex F.length (some (data7 b))
          .bufferOverflow none)) ∨
       (s.cfg.hasCmd (data7 b) = true ∧ ∃ payload, payload.length ≤ s.cfg.decodeCapacity ∧
          execSysex F s = .next (s.endSysex F.length (some (data7 b)) .ok
            (some (.sysExCommand (data7 b) payload)))))) := by
  cases hw : s.wired
  · exact .inl ⟨rfl, by simp only [execSysex, readyPrologue_of_unwired hw]⟩
  refine .inr ?_
  simp only [execSysex, readyPrologue_of_wired hw]
  split_ifs with h1 h2 h3 h4
  · exact .inl ⟨trivial, _, .inl rfl, rfl⟩
  · exact .inl ⟨trivial, _, .inr (.inl rfl), rfl⟩
  · exact .inl ⟨trivial, _, .inr (.inr (.inl rfl)), rfl⟩
  · exact .inl ⟨trivial, _, .inr (.inr (.inr rfl)), rfl⟩
  · have hP : s.cfg.prefixLen < F.length := by omega
    have hm : F.any highByte = false := by simpa using h2
    refine .inr ⟨trivial, hm, F[s.cfg.prefixLen], by simp [hP], ?_⟩
    simp only [frameRead, List.getElem?_eq_getElem hP]
    unfold sysexCommand
    cases hc : s.cfg.hasCmd (data7 F[s.cfg.prefixLen])
    · exact .inl ⟨rfl, by simp⟩
    · obtain ⟨h, e⟩ | ⟨h, _, e⟩ | ⟨h, hl, e⟩ :=
        decode7_cases (slice F (s.cfg.prefixLen + 1) F.length) s.cfg.decodeCapacity
      · obtain ⟨b, hb, hb'⟩ := List.any_eq_true.mp h
        exact absurd hb' (by
          simpa using List.any_eq_false.mp hm b (List.mem_of_mem_drop (List.mem_of_mem_take hb)))
      · exact .inr (.inl ⟨rfl, by simp [e]⟩)
      · exact .inr (.inr ⟨rfl, _, (unpackLoop_length_eq_decLen 0#8 _).trans_le hl, by simp [e]⟩)

/-! ## Every meaning -/

/-- Everything `exec` can do: an event-port output and nothing else, an NRPN write with its output, a response and
nothing else, or BEGIN. -/
theorem exec_cases (i : Instr) (s : State) :
    (∃ st ev r, i.onEvtPort = true ∧ exec i s = .next (s.endEvt st ev r)) ∨
    (∃ op c S d1 d2 r, i.onEvtPort = true ∧ exec i s = .next (s.endNrpn op c S d1 d2 r)) ∨
    (∃ st out, i.onEvtPort = false ∧ i ≠ .begin ∧ exec i s = .next (s.endCtl st out)) ∨
    (i = .begin ∧ exec i s = .next ({ s with wired := true }.endCtl .ok [])) := by
  have emit : ∀ op S d1 d2 ev, ∃ st ev' r, emitCv24 op S d1 d2 ev s = .next (s.endEvt st ev' r) := by
    intro op S d1 d2 ev
    obtain ⟨_, h⟩ | ⟨_, _, h⟩ | ⟨_, _, h⟩ := emitCv24_cases op S d1 d2 ev s <;> exact ⟨_, _, _, h⟩
  have write : ∀ op c d1 d2 w, (∃ st ev r, nrpnCv24 op c d1 d2 w s = .next (s.endEvt st ev r)) ∨
      ∃ op' c' S d1' d2' r, nrpnCv24 op c d1 d2 w s = .next (s.endNrpn op' c' S d1' d2' r) := by
    intro op c d1 d2 w
    obtain ⟨_, h⟩ | ⟨_, _, h⟩ | ⟨_, _, h⟩ := nrpnCv24_cases op c d1 d2 w s
    exacts [.inl ⟨_, _, _, h⟩, .inl ⟨_, _, _, h⟩, .inr ⟨_, _, _, _, _, _, h⟩]
  have respond : ∀ r, ∃ st out, s.respond r = s.endCtl st out := by
    intro r; cases r <;> exact ⟨_, _, rfl⟩
  cases i with
  | noteOff c d1 d2 =>
    obtain ⟨_, _, _, h⟩ := emit .noteOff (statusByte 0x8#4 c) d1 d2 (.noteOff c (data7 d1) (data7 d2))
    exact .inl ⟨_, _, _, rfl, h⟩
  | noteOnVel0 c d1 =>
    obtain ⟨_, _, _, h⟩ := emit .noteOnVel0 (statusByte 0x9#4 c) d1 0x00#8 (.noteOff c (data7 d1) 0#7)
    exact .inl ⟨_, _, _, rfl, h⟩
  | noteOn c d1 d2 =>
    obtain ⟨_, _, _, h⟩ := emit .noteOn (statusByte 0x9#4 c) d1 d2 (.noteOn c (data7 d1) (data7 d2))
    exact .inl ⟨_, _, _, rfl, h⟩
  | ccGeneric c d1 d2 =>
    obtain ⟨_, _, _, h⟩ := emit .ccGeneric (statusByte 0xB#4 c) d1 d2 (.controlChange c (data7 d1) (data7 d2))
    exact .inl ⟨_, _, _, rfl, h⟩
  | ccNrpnIdMsb c d2 =>
    obtain ⟨_, _, _, h⟩ | ⟨_, _, _, _, _, _, h⟩ := write .ccNrpnIdMsb c 0x63#8 d2 (fun f => writeIdMsb f (data7 d2))
    exacts [.inl ⟨_, _, _, rfl, h⟩, .inr (.inl ⟨_, _, _, _, _, _, rfl, h⟩)]
  | ccNrpnIdLsb c d2 =>
    obtain ⟨_, _, _, h⟩ | ⟨_, _, _, _, _, _, h⟩ := write .ccNrpnIdLsb c 0x62#8 d2 (fun f => writeIdLsb f (data7 d2))
    exacts [.inl ⟨_, _, _, rfl, h⟩, .inr (.inl ⟨_, _, _, _, _, _, rfl, h⟩)]
  | ccDataEntryMsb c d2 =>
    obtain ⟨_, _, _, h⟩ | ⟨_, _, _, _, _, _, h⟩ :=
      write .ccDataEntryMsb c 0x06#8 d2 (fun f => writeValueMsb f c (data7 d2))
    exacts [.inl ⟨_, _, _, rfl, h⟩, .inr (.inl ⟨_, _, _, _, _, _, rfl, h⟩)]
  | ccDataEntryLsb c d2 =>
    obtain ⟨_, _, _, h⟩ | ⟨_, _, _, _, _, _, h⟩ :=
      write .ccDataEntryLsb c 0x26#8 d2 (fun f => writeValueLsb f c (data7 d2))
    exacts [.inl ⟨_, _, _, rfl, h⟩, .inr (.inl ⟨_, _, _, _, _, _, rfl, h⟩)]
  | sysex F =>
    obtain ⟨_, h⟩ | ⟨_, _, _, h⟩ | ⟨_, _, _, _, ⟨_, h⟩ | ⟨_, h⟩ | ⟨_, _, _, h⟩⟩ := execSysex_cases F s <;>
      exact .inl ⟨_, _, _, rfl, h⟩
  | unsupported S d1 d2 =>
    cases hw : s.wired
    · exact .inl ⟨_, _, _, rfl, by simp only [exec, execUnsupported, readyPrologue_of_unwired hw]; rfl⟩
    · exact .inl ⟨_, _, _, rfl, by simp only [exec, execUnsupported, readyPrologue_of_wired hw]; rfl⟩
  | begin => exact .inr (.inr (.inr ⟨rfl, rfl⟩))
  | codecDecode cap I =>
    obtain ⟨st, out, h⟩ := respond (decode7 I (capValue cap))
    exact .inr (.inr (.inl ⟨st, out, rfl, by simp, congrArg _ h⟩))
  | codecEncode cap I =>
    obtain ⟨st, out, h⟩ := respond (encode7 I (capValue cap))
    exact .inr (.inr (.inl ⟨st, out, rfl, by simp, congrArg _ h⟩))
  | unsupportedCtl w I => exact .inr (.inr (.inl ⟨_, _, rfl, by simp, rfl⟩))

/-! ## A run, step by step -/

theorem run_zero (s : State) : Host.Core.run Sys2Proof.core 0 s = .next s := rfl

/-- A run of one step more, when that step goes on. -/
theorem run_succ {s t : State} (k : Nat) (h : step s = .next t) :
    Host.Core.run Sys2Proof.core (k + 1) s = Host.Core.run Sys2Proof.core k t := by
  have h' : Sys2Proof.core.step s = .next t := h
  exact (Host.Core.run.eq_2 Sys2Proof.core s k).trans (by simp only [h'])

/-- The step of an operation presented next. -/
theorem step_op {s t : State} {p : PortOp} {rest : List Input} (hs : s.inputs = .op p :: rest)
    (h : exec (decode p) (s.accept rest) = .next t) : step s = .next t := by
  simp only [step, hs, h]

/-- The step of a RESET presented next. -/
theorem step_reset {s : State} {rest : List Input} (hs : s.inputs = .reset :: rest) :
    step s = .next { s with inputs := rest }.applyReset := by
  simp only [step, hs]

end Sys2Proof.Machine
end

