-- ==== Sys2Proof/Laws/PerInstr.lean ====
section
/-! SUPPORT. The families of statements about every operation as syntax, one lemma per constructor. -/

namespace Sys2Proof.Laws.EncodedLength

/-- R76, R77: an operation's own encoding has 3 bytes as `CV24`, `1 + L` as `SX`, 4 as `CTL32`. -/
def Statement (i : Instr) : Prop := (encode i).headBytes.length = i.headLength

theorem noteOff (ch : Channel) (d1 d2 : Byte) : Statement (.noteOff ch d1 d2) := rfl
theorem noteOnVel0 (ch : Channel) (d1 : Byte) : Statement (.noteOnVel0 ch d1) := rfl
theorem noteOn (ch : Channel) (d1 d2 : Byte) : Statement (.noteOn ch d1 d2) := rfl
theorem ccNrpnIdMsb (ch : Channel) (d2 : Byte) : Statement (.ccNrpnIdMsb ch d2) := rfl
theorem ccNrpnIdLsb (ch : Channel) (d2 : Byte) : Statement (.ccNrpnIdLsb ch d2) := rfl
theorem ccDataEntryMsb (ch : Channel) (d2 : Byte) : Statement (.ccDataEntryMsb ch d2) := rfl
theorem ccDataEntryLsb (ch : Channel) (d2 : Byte) : Statement (.ccDataEntryLsb ch d2) := rfl
theorem ccGeneric (ch : Channel) (d1 d2 : Byte) : Statement (.ccGeneric ch d1 d2) := rfl
theorem sysex (frame : List Byte) : Statement (.sysex frame) := Nat.add_comm frame.length 1
theorem unsupported (status d1 d2 : Byte) : Statement (.unsupported status d1 d2) := rfl
theorem begin : Statement .begin := rfl
theorem codecDecode (cap : Capacity) (input : List Byte) : Statement (.codecDecode cap input) := rfl
theorem codecEncode (cap : Capacity) (input : List Byte) : Statement (.codecEncode cap input) := rfl
theorem unsupportedCtl (word : CtlWord) (input : List Byte) : Statement (.unsupportedCtl word input) := rfl

end Sys2Proof.Laws.EncodedLength
end

