-- ==== Sys2Proof/Tests/Slice0.lean ====
section
/-! SUPPORT. Tests on fixed values, taken from the spec's examples and vectors (spec/95, cited by row), and for every
statement with hypotheses a witness that meets them, clause by clause. -/

namespace Sys2Proof.Tests
open Sys2Proof.Machine Sys2Proof.Claims

/-! ## Small states -/

/-- The test configuration of spec/92 D40: `MFR_ID = [7D]`, `CMDS = {01, 02}`, `MAX_SYSEX_LEN = 64`,
`DECODE_CAPACITY = 32`. -/
def cfgD40 : Cfg := ⟨true, 0x7D#7, [], 0x6#128, 62, 32⟩

/-- The second configuration of spec/95 2.4: `MFR_ID = [00 21 09]`, `CMDS = {10}`, `MAX_SYSEX_LEN = 12`,
`DECODE_CAPACITY = 4`. -/
def cfgThree : Cfg := ⟨true, 0x00#7, [0x21#7, 0x09#7], 0x10000#128, 8, 4⟩

/-- After reset, before BEGIN. -/
def fresh : State := State.start cfgD40 []

/-- After BEGIN. -/
def ready : State := { fresh with wired := true }

/-- After BEGIN, with one shared field set. -/
def readyShared : State := { State.start { cfgD40 with nrpnPerChannel := false } [] with wired := true }

/-- After BEGIN, with these fields on channel 0. -/
def holding (im il vm vl : Option Data7) : State :=
  { ready with nrpn := ready.nrpn.set 0#4 ⟨im, il, vm, vl⟩ }

/-- What one operation presents, its offered diagnostic record, `wired` after it, and the field set of channel 0
after it. -/
def outcome (p : PortOp) (s : State) : Option (List OpOutput × List DiagRecord × Bool × NrpnFields) :=
  match exec (decode p) s with
  | .next t => some (t.outputs.map OpOutput.withoutDiag,
      t.outputs.filterMap (fun o => o.diagOffer.map DiagOffer.record), t.wired, t.nrpn.get 0#4)
  | _ => none

/-! ## Ill-formed terms are refused by WellFormed -/

theorem test_wf_noteOn_velocity_zero : (Instr.noteOn 0#4 0x3C#8 0x00#8).wf = false := by decide
theorem test_wf_ccGeneric_99 : (Instr.ccGeneric 0#4 0x63#8 0x00#8).wf = false := by decide
theorem test_wf_ccGeneric_98 : (Instr.ccGeneric 0#4 0x62#8 0x00#8).wf = false := by decide
theorem test_wf_ccGeneric_6 : (Instr.ccGeneric 0#4 0x06#8 0x00#8).wf = false := by decide
theorem test_wf_ccGeneric_38 : (Instr.ccGeneric 0#4 0x26#8 0x00#8).wf = false := by decide
theorem test_wf_unsupported_noteOff : (Instr.unsupported 0x8F#8 0x00#8 0x00#8).wf = false := by decide
theorem test_wf_unsupported_noteOn : (Instr.unsupported 0x90#8 0x00#8 0x00#8).wf = false := by decide
theorem test_wf_unsupported_cc : (Instr.unsupported 0xB0#8 0x00#8 0x00#8).wf = false := by decide
theorem test_wf_unsupportedCtl_begin : (Instr.unsupportedCtl 0x01000000#32 []).wf = false := by decide
theorem test_wf_unsupportedCtl_decode : (Instr.unsupportedCtl 0x0200FFFF#32 []).wf = false := by decide
theorem test_wf_unsupportedCtl_encode : (Instr.unsupportedCtl 0x03000000#32 [0x00#8]).wf = false := by decide

/-! ## Decoding: one word for each operation, in the fields of R71, R75 and R77 -/

theorem test_decode_noteOff : decodeTableWord 24 0b1000_0010_01000000_00101000 =
    some (.noteOff 2#4 64#8 40#8) := by decide
theorem test_decode_noteOnVel0 : decodeTableWord 24 0b1001_0011_00111100_00000000 =
    some (.noteOnVel0 3#4 60#8) := by decide
theorem test_decode_noteOn : decodeTableWord 24 0b1001_0000_00111100_01100100 =
    some (.noteOn 0#4 60#8 100#8) := by decide
theorem test_decode_ccNrpnIdMsb : decodeTableWord 24 0b1011_0000_01100011_00010010 =
    some (.ccNrpnIdMsb 0#4 0x12#8) := by decide
theorem test_decode_ccNrpnIdLsb : decodeTableWord 24 0b1011_0000_01100010_00110100 =
    some (.ccNrpnIdLsb 0#4 0x34#8) := by decide
theorem test_decode_ccDataEntryMsb : decodeTableWord 24 0b1011_0000_00000110_00000101 =
    some (.ccDataEntryMsb 0#4 0x05#8) := by decide
theorem test_decode_ccDataEntryLsb : decodeTableWord 24 0b1011_0000_00100110_01111111 =
    some (.ccDataEntryLsb 0#4 0x7F#8) := by decide
theorem test_decode_ccGeneric : decodeTableWord 24 0b1011_1111_00000111_01100100 =
    some (.ccGeneric 15#4 7#8 100#8) := by decide
theorem test_decode_sysex : decodeTableWord 8 0b1111_0000 = some (.sysex []) := by decide
theorem test_decode_unsupported : decodeTableWord 24 0b1100_0000_00000101_00000000 =
    some (.unsupported 0xC0#8 0x05#8 0x00#8) := by decide
theorem test_decode_begin : decodeTableWord 32 0b00000001_00000000_0000000000000000 =
    some .begin := by decide
theorem test_decode_codecDecode : decodeTableWord 32 0b00000010_00000000_0000000000001000 =
    some (.codecDecode 8#16 []) := by decide
theorem test_decode_codecEncode : decodeTableWord 32 0b00000011_00000000_0000000000010000 =
    some (.codecEncode 16#16 []) := by decide
theorem test_decode_unsupportedCtl : decodeTableWord 32 0b00000100_00000000_0000000000000000 =
    some (.unsupportedCtl 0x04000000#32 []) := by decide

/-- R83: `0xF0` as `CV24` is UNSUPPORTED, and a controller of 99 + 128 is CC_GENERIC. -/
theorem test_decode_corner_cases :
    decode (.evt (.cv24 0xF0#8 0x00#8 0x00#8)) = .unsupported 0xF0#8 0x00#8 0x00#8 ∧
    decode (.evt (.cv24 0xB0#8 0xE3#8 0x01#8)) = .ccGeneric 0#4 0xE3#8 0x01#8 := by decide

/-- R88 with R55: the frame is what follows the start byte. -/
theorem test_message_of_sysex_bytes :
    evtMsgOfBytes [0xF0#8, 0x7D#8, 0x01#8] = .ok (.sx [0x7D#8, 0x01#8]) := by rfl

/-- A word placed by `withFetchWord` is the next step's operation; before BEGIN it is turned away (vector D18). -/
theorem test_fetch_runs_first :
    (match step (State.reset.withFetchWord 24 0x903C64) with
      | .next t => (t.outputs, t.opIndex)
      | _ => ([], 0)) = ([.evt .notReady none none], 1) := by decide

/-! ## One step of each operation -/

/-- Vector D4. -/
theorem test_noteOff : outcome (.evt (.cv24 0x82#8 0x40#8 0x28#8)) ready =
    some ([.evt .ok (some (.noteOff 2#4 64#7 40#7)) none],
      [⟨.noteOff, 0x82#8, some 0x40#8, some 0x28#8, none, none, .ok⟩], true, .idle) := by decide
/-- Vector D7. -/
theorem test_noteOff_malformed : (outcome (.evt (.cv24 0x80#8 0xFF#8 0x00#8)) ready).map Prod.fst =
    some [.evt .malformedByte none none] := by decide
/-- Vector D3. -/
theorem test_noteOnVel0 : outcome (.evt (.cv24 0x93#8 0x3C#8 0x00#8)) ready =
    some ([.evt .ok (some (.noteOff 3#4 60#7 0#7)) none],
      [⟨.noteOnVel0, 0x93#8, some 0x3C#8, some 0x00#8, none, none, .ok⟩], true, .idle) := by decide
/-- Vector D1. -/
theorem test_noteOn : outcome (.evt (.cv24 0x90#8 0x3C#8 0x64#8)) ready =
    some ([.evt .ok (some (.noteOn 0#4 60#7 100#7)) none],
      [⟨.noteOn, 0x90#8, some 0x3C#8, some 0x64#8, none, none, .ok⟩], true, .idle) := by decide
/-- Vector D6. -/
theorem test_noteOn_malformed : outcome (.evt (.cv24 0x90#8 0x3C#8 0x80#8)) ready =
    some ([.evt .malformedByte none none],
      [⟨.noteOn, 0x90#8, some 0x3C#8, some 0x80#8, none, none, .malformedByte⟩], true, .idle) := by decide
/-- Vector S6, row 4. -/
theorem test_ccNrpnIdMsb :
    (outcome (.evt (.cv24 0xB0#8 0x63#8 0x01#8)) (holding (some 0x12#7) (some 0x34#7) (some 0x05#7) none)).map
      (fun o => (o.1, o.2.2.2)) =
    some ([.evt .nrpnPending none none], ⟨some 0x01#7, some 0x34#7, none, none⟩) := by decide
/-- Vector D20. -/
theorem test_ccNrpnIdMsb_not_ready : outcome (.evt (.cv24 0xB0#8 0x63#8 0x01#8)) fresh =
    some ([.evt .notReady none none], [], false, .idle) := by decide
/-- Vector N3, row 3. -/
theorem test_ccNrpnIdLsb :
    (outcome (.evt (.cv24 0xB0#8 0x62#8 0x35#8)) (holding (some 0x12#7) (some 0x34#7) (some 0x02#7) none)).map
      (fun o => (o.1, o.2.2.2)) =
    some ([.evt .nrpnPending none none], ⟨some 0x12#7, some 0x35#7, none, none⟩) := by decide
/-- Vector N1, row 6: `137 = (1 << 7) | 9`. -/
theorem test_ccDataEntryMsb :
    (outcome (.evt (.cv24 0xB0#8 0x06#8 0x01#8)) (holding (some 0x00#7) (some 0x05#7) none (some 0x09#7))).map
      (fun o => (o.1, o.2.2.2)) =
    some ([.evt .ok (some (.nrpnParameterChange 0#4 5#14 137#14)) none],
      ⟨some 0x00#7, some 0x05#7, none, none⟩) := by decide
/-- Vector N1, row 1. -/
theorem test_ccDataEntryMsb_ignored :
    (outcome (.evt (.cv24 0xB0#8 0x06#8 0x01#8)) ready).map (fun o => (o.1, o.2.2.2)) =
    some ([.evt .nrpnIgnored none none], .idle) := by decide
/-- Vector S5, row 4. -/
theorem test_ccDataEntryLsb :
    (outcome (.evt (.cv24 0xB0#8 0x26#8 0x7F#8)) (holding (some 0x12#7) (some 0x34#7) (some 0x05#7) none)).map
      (fun o => (o.1, o.2.2.2)) =
    some ([.evt .ok (some (.nrpnParameterChange 0#4 2356#14 767#14)) none],
      ⟨some 0x12#7, some 0x34#7, none, none⟩) := by decide
/-- Vector N4, row 1. -/
theorem test_ccDataEntryLsb_malformed :
    (outcome (.evt (.cv24 0xB0#8 0x26#8 0x80#8)) (holding (some 0x12#7) (some 0x34#7) (some 0x05#7) none)).map
      (fun o => (o.1, o.2.2.2)) =
    some ([.evt .malformedByte none none], ⟨some 0x12#7, some 0x34#7, some 0x05#7, none⟩) := by decide
/-- Vector S9. -/
theorem test_ccGeneric :
    outcome (.evt (.cv24 0xB0#8 0x07#8 0x64#8)) (holding (some 0x12#7) (some 0x34#7) (some 0x05#7) none) =
    some ([.evt .ok (some (.controlChange 0#4 7#7 100#7)) none],
      [⟨.ccGeneric, 0xB0#8, some 0x07#8, some 0x64#8, none, none, .ok⟩], true,
      ⟨some 0x12#7, some 0x34#7, some 0x05#7, none⟩) := by decide
/-- Vector N4, row 2. -/
theorem test_ccGeneric_malformed : (outcome (.evt (.cv24 0xB0#8 0xE3#8 0x01#8)) ready).map Prod.fst =
    some [.evt .malformedByte none none] := by decide
/-- Vector X1. -/
theorem test_sysex : outcome (.evt (.sx [0x7D#8, 0x01#8, 0x01#8, 0x00#8])) ready =
    some ([.evt .ok (some (.sysExCommand 1#7 [0x80#8])) none],
      [⟨.sysex, 0xF0#8, none, none, some 4, some 1#7, .ok⟩], true, .idle) := by decide
/-- Vector Y5: `decLen(6) = 5` is over a capacity of 4. -/
theorem test_sysex_overflow :
    (outcome (.evt (.sx [0x00#8, 0x21#8, 0x09#8, 0x10#8, 0x0F#8, 0x01#8, 0x02#8, 0x03#8, 0x04#8, 0x05#8]))
      { ready with cfg := cfgThree }).map Prod.fst = some [.evt .bufferOverflow none none] := by decide
/-- Vector D12. -/
theorem test_unsupported : outcome (.evt (.cv24 0xC0#8 0x05#8 0x00#8)) ready =
    some ([.evt .unsupportedEvent none none],
      [⟨.unsupported, 0xC0#8, none, none, none, none, .unsupportedEvent⟩], true, .idle) := by decide
/-- Vector D14: the data bytes are not checked. -/
theorem test_unsupported_high_bytes : (outcome (.evt (.cv24 0xA0#8 0x80#8 0x80#8)) ready).map Prod.fst =
    some [.evt .unsupportedEvent none none] := by decide
/-- Vector B1. -/
theorem test_begin : outcome (.ctl 0x01000000#32 []) fresh =
    some ([.ctl .ok []], [], true, .idle) := by decide
/-- §2.5 of spec/95: BEGIN keeps a transaction in progress. -/
theorem test_begin_keeps_transaction :
    (outcome (.ctl 0x01000000#32 []) (holding (some 0x12#7) (some 0x34#7) (some 0x05#7) none)).map (·.2.2.2) =
    some ⟨some 0x12#7, some 0x34#7, some 0x05#7, none⟩ := by decide
/-- Vector S2, second instance, in the unwired state (vector B9). -/
theorem test_codecDecode :
    outcome (.ctl 0x02000008#32
      [0x40#8, 0x01#8, 0x02#8, 0x03#8, 0x04#8, 0x05#8, 0x06#8, 0x07#8, 0x01#8, 0x7F#8]) fresh =
    some ([.ctl .ok [0x01#8, 0x02#8, 0x03#8, 0x04#8, 0x05#8, 0x06#8, 0x87#8, 0xFF#8]], [], false, .idle) := by
  decide
/-- Vector C10. -/
theorem test_codecDecode_malformed_first : (outcome (.ctl 0x02000000#32 [0x80#8, 0x01#8]) ready).map Prod.fst =
    some [.ctl .malformedByte []] := by decide
/-- Vector E7. -/
theorem test_codecEncode :
    (outcome (.ctl 0x0300000A#32
      [0x12#8, 0x34#8, 0x56#8, 0x78#8, 0x9A#8, 0xBC#8, 0xDE#8, 0xF0#8]) fresh).map Prod.fst =
    some [.ctl .ok [0x70#8, 0x12#8, 0x34#8, 0x56#8, 0x78#8, 0x1A#8, 0x3C#8, 0x5E#8, 0x01#8, 0x70#8]] := by
  decide
/-- Vector E3. -/
theorem test_codecEncode_overflow : (outcome (.ctl 0x03000001#32 [0x80#8]) ready).map Prod.fst =
    some [.ctl .bufferOverflow []] := by decide
/-- Vector B8. -/
theorem test_unsupportedCtl : outcome (.ctl 0x02010008#32 [0x01#8, 0x00#8]) fresh =
    some ([.ctl .unsupportedEvent []], [], false, .idle) := by decide

/-- §2.6 of spec/95. -/
theorem test_reset :
    (match step { holding (some 0x12#7) (some 0x34#7) (some 0x05#7) none with inputs := [.reset] } with
      | .next t => some (t.outputs, t.wired, t.nrpn)
      | _ => none) = some ([], false, NrpnBank.idle true) := by decide

/-- R26 with the values of D40. -/
theorem test_configure : RawCfg.configure ⟨true, [0x7D#7], 0x6#128, 64, 32⟩ = some cfgD40 := by decide

/-- Rows 2 to 5 of program 1 are `nrpn 0, 0x934, 0x2FF`. -/
theorem test_assemble_nrpn : assemble cfgD40 (.nrpn 0#4 0x934#14 0x2FF#14) =
    [.op (.evt (.cv24 0xB0#8 0x63#8 0x12#8)), .op (.evt (.cv24 0xB0#8 0x62#8 0x34#8)),
     .op (.evt (.cv24 0xB0#8 0x06#8 0x05#8)), .op (.evt (.cv24 0xB0#8 0x26#8 0x7F#8))] := by decide

/-! ## Witnesses for the hypotheses of the statements -/

theorem witness_DecodeOfEncodeGivesTheOperationBack :
    (Instr.noteOn 15#4 0x7F#8 0x01#8).wf = true ∧ (Instr.ccGeneric 0#4 0x64#8 0x00#8).wf = true ∧
    (Instr.unsupported 0x7F#8 0x00#8 0x00#8).wf = true ∧ (Instr.unsupportedCtl 0x01000001#32 []).wf = true ∧
    (Instr.unsupportedCtl 0x01000000#32 [0x00#8]).wf = true := by decide

theorem witness_ReservedEncodingsAreRefused :
    ready.wired = true ∧ fresh.wired = false ∧
    (0x00#8).toNat < 0x80 ∧ (0x7F#8).toNat < 0x80 ∧
    (0xA0 ≤ (0xA0#8).toNat ∧ (0xA0#8).toNat ≤ 0xAF) ∧ (0xA0 ≤ (0xAF#8).toNat ∧ (0xAF#8).toNat ≤ 0xAF) ∧
    0xC0 ≤ (0xC0#8).toNat ∧ 0xC0 ≤ (0xFF#8).toNat ∧
    (0x00000000#32).toNat / 2 ^ 24 = 0 ∧ 4 ≤ (0x04000000#32).toNat / 2 ^ 24 ∧
    4 ≤ (0xFF000000#32).toNat / 2 ^ 24 ∧ (0x02010000#32).toNat / 2 ^ 16 % 2 ^ 8 ≠ 0 ∧
    ((0x01000001#32).toNat / 2 ^ 24 = 1 ∧ (0x01000001#32).toNat % 2 ^ 16 ≠ 0) ∧
    ((0x01000000#32).toNat / 2 ^ 24 = 1 ∧ [(0x00#8 : Byte)] ≠ []) := by decide

theorem witness_MessagesAreReadBackFromTheirBytes : (0xEF#8 : Byte) ≠ 0xF0#8 ∧ (0xF1#8 : Byte) ≠ 0xF0#8 := by
  decide

theorem witness_EventPrologueRunsFirst :
    ((Instr.sysex []).onEvtPort = true ∧ (Instr.unsupported 0xC0#8 0x00#8 0x00#8).onEvtPort = true ∧
      fresh.wired = false) ∧
    (ready.wired = true ∧ (0x80#8).toNat / 16 = 0x8 ∧ (0x9F#8).toNat / 16 = 0x9 ∧ (0xB0#8).toNat / 16 = 0xB ∧
      128 ≤ (0x80#8).toNat ∧ 128 ≤ (0xFF#8).toNat) ∧
    ((0x7F#8).toNat / 16 ≠ 0x8 ∧ (0xA0#8).toNat / 16 ≠ 0x9 ∧ (0xC0#8).toNat / 16 ≠ 0xB) ∧
    ((0xC0#8).toNat / 16 ≠ 0x8 ∧ (0xC0#8).toNat / 16 ≠ 0x9) := by decide

theorem witness_NoteOffIsForwarded :
    (0x80 ≤ (0x80#8).toNat ∧ (0x80#8).toNat ≤ 0x8F) ∧ (0x80 ≤ (0x8F#8).toNat ∧ (0x8F#8).toNat ≤ 0x8F) ∧
    fresh.wired = false ∧ ready.wired = true ∧ 128 ≤ (0x80#8).toNat ∧
    (0x7F#8).toNat < 128 ∧ (0x00#8).toNat < 128 := by decide

theorem witness_NoteOnIsForwarded :
    (0x90 ≤ (0x90#8).toNat ∧ (0x90#8).toNat ≤ 0x9F) ∧ (0x90 ≤ (0x9F#8).toNat ∧ (0x9F#8).toNat ≤ 0x9F) ∧
    (0x01#8).toNat ≠ 0 ∧ (0x80#8).toNat ≠ 0 ∧ fresh.wired = false ∧ ready.wired = true ∧ 128 ≤ (0x80#8).toNat ∧
    (0x7F#8).toNat < 128 ∧ (0x01#8).toNat < 128 := by decide

theorem witness_NoteOnWithVelocityZeroIsANoteOff :
    (0x90 ≤ (0x90#8).toNat ∧ (0x90#8).toNat ≤ 0x9F) ∧ (0x90 ≤ (0x9F#8).toNat ∧ (0x9F#8).toNat ≤ 0x9F) ∧
    fresh.wired = false ∧ ready.wired = true ∧ 128 ≤ (0x80#8).toNat ∧ (0x7F#8).toNat < 128 ∧
    (0x00#8).toNat < 128 := by decide

theorem witness_GenericControlChangeIsForwarded :
    (0xB0 ≤ (0xB0#8).toNat ∧ (0xB0#8).toNat ≤ 0xBF) ∧ (0xB0 ≤ (0xBF#8).toNat ∧ (0xBF#8).toNat ≤ 0xBF) ∧
    (∀ d1 ∈ [0#8, 5#8, 7#8, 37#8, 39#8, 97#8, 100#8, 127#8, 0xE3#8],
      d1.toNat ≠ 6 ∧ d1.toNat ≠ 38 ∧ d1.toNat ≠ 98 ∧ d1.toNat ≠ 99) ∧
    fresh.wired = false ∧ ready.wired = true ∧ 128 ≤ (0xE3#8).toNat ∧ (127#8).toNat < 128 := by decide

theorem witness_UnsupportedEventIsRefused :
    (∀ S ∈ [0x00#8, 0x7F#8, 0xA0#8, 0xAF#8, 0xC0#8, 0xF0#8, 0xF7#8, 0xFF#8],
      S.toNat / 16 ≠ 0x8 ∧ S.toNat / 16 ≠ 0x9 ∧ S.toNat / 16 ≠ 0xB) ∧
    fresh.wired = false ∧ ready.wired = true := by decide

theorem witness_EachEventOperationOffersItsOwnRecord :
    (Instr.begin.onEvtPort = false ∧ (Instr.noteOff 2#4 64#8 40#8).onEvtPort = true ∧ fresh.wired = false ∧
      ready.wired = true) ∧
    (encode (.noteOff 2#4 64#8 40#8) = .evt (.cv24 0x82#8 64#8 40#8) ∧ EvtOpName.noteOff ≠ .unsupported) ∧
    (encode (.ccNrpnIdMsb 0#4 0x12#8) = .evt (.cv24 0xB0#8 0x63#8 0x12#8) ∧
      EvtOpName.ccNrpnIdMsb ≠ .unsupported) ∧
    [0x7D#8, 0x01#8][ready.cfg.mfrId.length]? = some 0x01#8 := by decide

theorem witness_IdentifierMsbIsStored :
    (0xB0 ≤ (0xB0#8).toNat ∧ (0xB0#8).toNat ≤ 0xBF) ∧ (0xB0 ≤ (0xBF#8).toNat ∧ (0xBF#8).toNat ≤ 0xBF) ∧
    fresh.wired = false ∧ ready.wired = true ∧ 128 ≤ (0x80#8).toNat ∧ (99#8).toNat < 128 ∧
    (127#8).toNat < 128 := by decide

theorem witness_IdentifierLsbIsStored :
    (0xB0 ≤ (0xB0#8).toNat ∧ (0xB0#8).toNat ≤ 0xBF) ∧ (0xB0 ≤ (0xBF#8).toNat ∧ (0xBF#8).toNat ≤ 0xBF) ∧
    fresh.wired = false ∧ ready.wired = true ∧ 128 ≤ (0x80#8).toNat ∧ (98#8).toNat < 128 ∧
    (127#8).toNat < 128 := by decide

theorem witness_DataEntryMsbStoresOrCompletes :
    (0xB0 ≤ (0xB0#8).toNat ∧ (0xB0#8).toNat ≤ 0xBF) ∧ chan 0xB0#8 = 0#4 ∧
    fresh.wired = false ∧ ready.wired = true ∧ 128 ≤ (0x80#8).toNat ∧ (127#8).toNat < 128 ∧
    (ready.nrpn.get 0#4).identifierMsb = none ∧
    ((holding none (some 5#7) none none).wired = true ∧
      ((holding none (some 5#7) none none).nrpn.get 0#4).identifierMsb = none) ∧
    ((holding (some 5#7) none none none).nrpn.get 0#4).identifierLsb = none ∧
    (holding (some 1#7) (some 2#7) (some 3#7) none).nrpn.get 0#4 = ⟨some 1#7, some 2#7, some 3#7, none⟩ ∧
    (holding (some 1#7) (some 2#7) none (some 4#7)).nrpn.get 0#4 = ⟨some 1#7, some 2#7, none, some 4#7⟩ := by
  decide

theorem witness_DataEntryLsbStoresOrCompletes :
    (0xB0 ≤ (0xB0#8).toNat ∧ (0xB0#8).toNat ≤ 0xBF) ∧ chan 0xB0#8 = 0#4 ∧
    fresh.wired = false ∧ ready.wired = true ∧ 128 ≤ (0x80#8).toNat ∧ (127#8).toNat < 128 ∧
    (ready.nrpn.get 0#4).identifierLsb = none ∧
    ((holding (some 5#7) none none none).wired = true ∧
      ((holding (some 5#7) none none none).nrpn.get 0#4).identifierLsb = none) ∧
    ((holding none (some 5#7) none none).nrpn.get 0#4).identifierMsb = none ∧
    (holding (some 1#7) (some 2#7) none (some 4#7)).nrpn.get 0#4 = ⟨some 1#7, some 2#7, none, some 4#7⟩ ∧
    (holding (some 1#7) (some 2#7) (some 3#7) none).nrpn.get 0#4 = ⟨some 1#7, some 2#7, some 3#7, none⟩ := by
  decide

theorem witness_NoteOnVelocityZeroAndNoteOffAgree : ready.wired = true := by decide

/-- A wired state in each of the six forms a row of the table starts from. -/
theorem witness_TransitionTableHolds :
    (fresh.wired = false ∧ 128 ≤ (0xE3#8).toNat ∧ 128 ≤ (0x80#8).toNat) ∧
    (holding none none none none).wired = true ∧
    (holding none none none none).nrpn.get 0#4 = ⟨none, none, none, none⟩ ∧
    (holding (some 1#7) none none none).nrpn.get 0#4 = ⟨some 1#7, none, none, none⟩ ∧
    (holding none (some 2#7) none none).nrpn.get 0#4 = ⟨none, some 2#7, none, none⟩ ∧
    (holding (some 1#7) (some 2#7) none none).nrpn.get 0#4 = ⟨some 1#7, some 2#7, none, none⟩ ∧
    (holding (some 1#7) (some 2#7) (some 3#7) none).nrpn.get 0#4 = ⟨some 1#7, some 2#7, some 3#7, none⟩ ∧
    (holding (some 1#7) (some 2#7) none (some 4#7)).nrpn.get 0#4 = ⟨some 1#7, some 2#7, none, some 4#7⟩ ∧
    (holding (some 1#7) (some 2#7) none (some 4#7)).wired = true := by decide

theorem witness_FieldSetsAreIndependentOrShared :
    (ready.bankFits = true ∧ ready.cfg.nrpnPerChannel = true ∧ (15#4 : Channel) ≠ 0#4) ∧
    (readyShared.bankFits = true ∧ readyShared.cfg.nrpnPerChannel = false) := by decide

theorem witness_MergeIsExact : (127 ≤ 127 ∧ 0 ≤ 127) ∧ (127 < 128 ∨ 127 < 0) ∧ (127 < 0 ∨ 127 < 128) := by decide

theorem witness_PhasesFollowTheTable :
    NrpnFields.phase ⟨some 1#7, some 2#7, some 3#7, some 4#7⟩ = some .complete := by decide

theorem witness_ControlChangesAreRoutedByTheAssemblersAnswer :
    ready.wired = true ∧ (onControlChange (ready.nrpn.get 0#4) 0#4 7#7 100#7).1 = .notNrpn ∧
    (onControlChange (ready.nrpn.get 0#4) 0#4 99#7 1#7).1 = .consumed .nrpnPending ∧
    (onControlChange (ready.nrpn.get 0#4) 0#4 6#7 1#7).1 = .consumed .nrpnIgnored ∧
    (onControlChange ⟨some 0x12#7, some 0x34#7, some 0x05#7, none⟩ 0#4 38#7 0x7F#7).1 =
      .emitted (.nrpnParameterChange 0#4 2356#14 767#14) := by decide

theorem witness_NrpnPseudoOperationEmitsItsEvent : ready.wired = true := by decide

theorem witness_TransactionSurvivesOtherTraffic :
    ready.wired = true ∧
    List.all [.op (.evt (.cv24 0x90#8 60#8 100#8)), .op (.ctl 0x01000000#32 []), cc 0#4 7#8 100#7,
      .op (.evt (.sx [0x7D#8])), .op (.evt (.cv24 0xC0#8 5#8 0#8)), .op (.ctl 0x02000008#32 [1#8])]
      leavesNrpnAlone = true := by decide

theorem witness_FreshValuePairReusesTheIdentifier :
    (holding (some 0x12#7) (some 0x34#7) none none).wired = true ∧
    (holding (some 0x12#7) (some 0x34#7) none none).nrpn.get 0#4 = ⟨some 0x12#7, some 0x34#7, none, none⟩ := by
  decide

theorem witness_FreshIdentifierDropsTheTransaction : ready.wired = true := by decide

theorem witness_GlobalStateInterleavesChannels :
    (readyShared.wired = true ∧ readyShared.bankFits = true ∧ readyShared.cfg.nrpnPerChannel = false) ∧
    (ready.wired = true ∧ ready.bankFits = true ∧ ready.cfg.nrpnPerChannel = true ∧
      [0#4, 1#4, 2#4, (3#4 : Channel)].Nodup ∧ ∀ c, ready.nrpn.get c = NrpnFields.idle) := by decide

theorem witness_IdentifiersPersist :
    List.all [cc 0#4 6#8 1#7, cc 0#4 38#8 2#7, .op (.evt (.cv24 0x90#8 60#8 100#8)), .op (.ctl 0x01000000#32 [])]
      keepsIdentifiers = true ∧
    (holding (some 0x12#7) (some 0x34#7) (some 1#7) none).wired = true ∧
    ((holding (some 0x12#7) (some 0x34#7) (some 1#7) none).nrpn.get 0#4).identifierMsb = some 0x12#7 ∧
    ((holding (some 0x12#7) (some 0x34#7) (some 1#7) none).nrpn.get 0#4).identifierLsb = some 0x34#7 ∧
    ((holding (some 0x12#7) (some 0x34#7) (some 1#7) none).nrpn.get 0#4).valueLsb = none := by decide

theorem witness_RpnDataEntryIsCaptured :
    (holding (some 0x12#7) (some 0x34#7) none none).wired = true ∧
    (holding (some 0x12#7) (some 0x34#7) none none).nrpn.get 0#4 = ⟨some 0x12#7, some 0x34#7, none, none⟩ ∧
    (holding (some 0x12#7) (some 0x34#7) none (some 1#7)).nrpn.get 0#4 =
      ⟨some 0x12#7, some 0x34#7, none, some 1#7⟩ ∧
    (ready.wired = true ∧ (ready.nrpn.get 0#4).identifierMsb = none) ∧
    ((holding (some 0x12#7) none none none).nrpn.get 0#4).identifierLsb = none := by decide

theorem witness_PhysicalFormIsFaithful : physicalField (some 0x7F#7) = physicalField (some 0x7F#7) := by decide

/-- Capacity one under, and exactly, the length; a header alone at capacity 0. -/
theorem witness_CodecDecodeUnpacks :
    (0x02000002#32).toNat = 0x02000000 + (2#16).toNat ∧ (0x0200FFFF#32).toNat = 0x02000000 + (0xFFFF#16).toNat ∧
    (∃ b ∈ [0x01#8, 0x80#8], 128 ≤ b.toNat) ∧
    (AllSevenBit [0x00#8, 0x7F#8, 0x02#8] ∧
      (1#16).toNat < [0x00#8, 0x7F#8, 0x02#8].length - ([0x00#8, 0x7F#8, 0x02#8].length + 7) / 8 ∧
      [0x00#8, 0x7F#8, 0x02#8].length - ([0x00#8, 0x7F#8, 0x02#8].length + 7) / 8 ≤ (2#16).toNat) ∧
    (AllSevenBit [0x00#8] ∧ [0x00#8].length - ([0x00#8].length + 7) / 8 ≤ (0#16).toNat) := by
  unfold AllSevenBit; decide

theorem witness_CodecEncodePacks :
    (0x03000002#32).toNat = 0x03000000 + (2#16).toNat ∧
    (1#16).toNat < [0x80#8].length + ([0x80#8].length + 6) / 7 ∧
    [0x80#8].length + ([0x80#8].length + 6) / 7 ≤ (2#16).toNat := by decide

theorem witness_CodecRoundTrip : [0x80#8, 0x7F#8].length ≤ 2 := by decide

/-- A canonical sequence and one that is not (vector C5). -/
theorem witness_CodecConverseHoldsExactlyForCanonicalInput :
    (AllSevenBit [0x00#8, 0x01#8] ∧ decLen [0x00#8, 0x01#8].length ≤ 1) ∧
    (AllSevenBit [0x7E#8, 0x01#8] ∧ decLen [0x7E#8, 0x01#8].length ≤ 1) ∧
    (AllSevenBit [0x7F#8] ∧ decLen [0x7F#8].length ≤ 0) := by
  unfold AllSevenBit; decide

/-- A last group of 0, of 3 and of 7 data bytes (vectors C2, S2 and C4). -/
theorem witness_DecodedLengthIsExact :
    (decode7 [0x00#8] 0 = .ok [] ∧ [0x00#8].length = 8 * 0 + 1 + 0) ∧
    (decode7 [0x05#8, 0x10#8, 0x20#8, 0x30#8] 8 = .ok [0x90#8, 0x20#8, 0xB0#8] ∧
      [0x05#8, 0x10#8, 0x20#8, 0x30#8].length = 8 * 0 + 1 + 3) ∧
    (decode7 [0x7F#8, 0x00#8, 0x01#8, 0x02#8, 0x03#8, 0x04#8, 0x05#8, 0x06#8] 7 =
        .ok [0x80#8, 0x81#8, 0x82#8, 0x83#8, 0x84#8, 0x85#8, 0x86#8] ∧
      [0x7F#8, 0x00#8, 0x01#8, 0x02#8, 0x03#8, 0x04#8, 0x05#8, 0x06#8].length = 8 * 0 + 1 + 7) := by decide

/-- One frame for each clause, at the boundary of its check, in the configuration of spec/95 2.4 with `P = 3`. -/
theorem witness_SysexChecksAndDispatches :
    (cfgThree.maxSysexLen = 12 ∧ cfgThree.mfrId.length = 3 ∧ fresh.wired = false ∧ ready.wired = true) ∧
    cfgThree.maxSysexLen < (List.replicate 13 0x00#8).length ∧
    ((List.replicate 11 0x00#8 ++ [0x80#8]).length ≤ cfgThree.maxSysexLen ∧
      ∃ b ∈ List.replicate 11 0x00#8 ++ [0x80#8], 128 ≤ b.toNat) ∧
    (AllSevenBit [0x00#8, 0x21#8, 0x09#8] ∧ [0x00#8, 0x21#8, 0x09#8].length < cfgThree.mfrId.length + 1) ∧
    (AllSevenBit [0x00#8, 0x21#8, 0x0A#8, 0x10#8] ∧
      cfgThree.mfrId.length + 1 ≤ [0x00#8, 0x21#8, 0x0A#8, 0x10#8].length ∧
      [0x00#8, 0x21#8, 0x0A#8, 0x10#8].take cfgThree.mfrId.length ≠ cfgThree.mfrId.map (BitVec.setWidth 8)) ∧
    ([0x00#8, 0x21#8, 0x09#8, 0x11#8] = cfgThree.mfrId.map (BitVec.setWidth 8) ++ 0x11#8 :: [] ∧
      cfgThree.hasCmd (val7 0x11#8) = false) ∧
    ([0x00#8, 0x21#8, 0x09#8, 0x10#8, 0x0F#8, 0x01#8, 0x02#8, 0x03#8, 0x04#8, 0x05#8] =
        cfgThree.mfrId.map (BitVec.setWidth 8) ++ 0x10#8 :: [0x0F#8, 0x01#8, 0x02#8, 0x03#8, 0x04#8, 0x05#8] ∧
      cfgThree.hasCmd (val7 0x10#8) = true ∧ cfgThree.decodeCapacity < 6 - (6 + 7) / 8) ∧
    ([0x00#8, 0x21#8, 0x09#8, 0x10#8] = cfgThree.mfrId.map (BitVec.setWidth 8) ++ 0x10#8 :: [] ∧
      AllSevenBit [0x00#8, 0x21#8, 0x09#8, 0x10#8] ∧ 5 - (5 + 7) / 8 ≤ cfgThree.decodeCapacity) := by
  unfold AllSevenBit; decide

theorem witness_SysexCommandArrivesWithItsData :
    ready.wired = true ∧ ready.cfg.hasCmd 0x01#7 = true ∧
    [0x12#8, 0x34#8, 0x56#8, 0x78#8, 0x9A#8, 0xBC#8, 0xDE#8, 0xF0#8].length ≤ ready.cfg.decodeCapacity ∧
    ready.cfg.mfrId.length + 1 + encLen 8 ≤ ready.cfg.maxSysexLen := by decide

theorem witness_BeginWiresTheBlock :
    ((0x01000001#32).toNat = 0x01000000 + (1#16).toNat ∧ (1#16 : Capacity) ≠ 0#16) ∧
    ((0x01000000#32).toNat = 0x01000000 + (0#16).toNat ∧ [(0x00#8 : Byte)] ≠ []) := by decide

theorem witness_StepRunsTheDecodedOperation :
    (State.start cfgD40 [.op (.ctl 0x01000000#32 []), .reset]).inputs =
      .op (.ctl 0x01000000#32 []) :: [.reset] ∧ decode (.ctl 0x01000000#32 []) = .begin := by decide

theorem witness_IdleBlockKeepsItsState : ready.inputs = [] := by decide

theorem witness_ResetPutsEveryPieceOfStateToItsResetValue :
    { holding (some 1#7) (some 2#7) (some 3#7) none with inputs := [.reset] }.inputs = .reset :: [] := by decide

/-- An invariant state with a transaction in progress, and the step that completes it. -/
theorem witness_EveryStepKeepsTheInvariant :
    ∃ s t : State, s.Inv ∧ s.inputs ≠ [] ∧ step s = .next t ∧ t.nrpn.get 0#4 ≠ s.nrpn.get 0#4 :=
  ⟨{ holding (some 1#7) (some 2#7) (some 3#7) none with inputs := [cc 0#4 38#8 4#7] }, _,
    by unfold State.Inv; decide, by decide, rfl, by decide⟩

/-- A run of two steps, and a channel whose value field is set after it. -/
theorem witness_ReachableFieldSetsAreInAPhase :
    (∃ t, Host.Core.run Sys2Proof.core 2
      (State.start cfgD40 [.op (.ctl 0x01000000#32 []), cc 0#4 99#8 1#7]) = .next t) ∧
    ((holding (some 1#7) (some 2#7) (some 3#7) none).nrpn.get 0#4).valueMsb ≠ none :=
  ⟨⟨_, rfl⟩, by decide⟩

/-- One run without RESET and one with it. -/
theorem witness_EventsBeforeBeginAreLost :
    fresh.wired = false ∧ Input.reset ∉ [Input.op (.evt (.cv24 0x90#8 60#8 100#8))] ∧
    Input.reset ∈ [Input.reset, .op (.evt (.cv24 0x90#8 60#8 100#8))] ∧ decode (.evt (.cv24 0x90#8 60#8 100#8)) ≠ .begin ∧
    ∀ p, Input.op p ∈ [Input.reset, .op (.evt (.cv24 0x90#8 60#8 100#8))] → decode p ≠ .begin := by
  refine ⟨by decide, by decide, by decide, by decide, fun p hp => ?_⟩
  simp only [List.mem_cons, reduceCtorEq, Input.op.injEq, List.not_mem_nil, or_false, false_or] at hp
  subst hp; decide

theorem witness_OperationsReadAndWriteWhatTheTableSays :
    (∃ t, exec .begin fresh = .next t) ∧
    (Instr.codecDecode 0#16 []).onEvtPort = false ∧
    (fresh.wired = (State.start cfgThree []).wired ∧ (Instr.noteOff 0#4 0#8 0#8).onEvtPort = true ∧
      nrpnChannel (.noteOff 0#4 0#8 0#8) = none ∧ fresh ≠ State.start cfgThree []) ∧
    (ready.cfg = (holding (some 1#7) none none none).cfg ∧ ready ≠ holding (some 1#7) none none none) ∧
    (nrpnChannel (.ccNrpnIdMsb 1#4 0#8) = some 1#4 ∧
      ready.nrpn.get 1#4 = (holding (some 1#7) none none none).nrpn.get 1#4 ∧
      ready.wired = (holding (some 1#7) none none none).wired) ∧
    (fresh.cfg = (holding (some 1#7) none none none).cfg ∧ fresh ≠ holding (some 1#7) none none none) :=
  ⟨⟨_, rfl⟩, by decide⟩

theorem witness_ErrorStatusesLeaveTheStateAlone :
    (∃ t, exec (.noteOff 0#4 0#8 0#8) fresh = .next t ∧ t.outputs = fresh.outputs ++ [.evt .notReady none none] ∧
      Status.notReady ≠ .ok ∧ Status.notReady ≠ .nrpnPending ∧ Status.notReady ≠ .nrpnIgnored ∧
      Status.notReady ≠ .unrecognizedSysexCommand) ∧
    (∃ t d, exec (.sysex [0x7D#8, 0x05#8]) ready = .next t ∧ t.outputs = ready.outputs ++
      [.evt .unrecognizedSysexCommand (some (.unrecognizedSysExCommand 5#7)) d]) ∧
    (∃ t, exec (.codecDecode 0#16 [0x80#8]) fresh = .next t ∧
      t.outputs = fresh.outputs ++ [.ctl .malformedByte []] ∧ Status.malformedByte ≠ .ok) :=
  ⟨⟨_, rfl, rfl, by decide⟩, ⟨_, _, rfl, rfl⟩, ⟨_, rfl, rfl, by decide⟩⟩

theorem witness_PortOrderIsInvisibleExceptForBegin :
    decode (.ctl 0x02000008#32 [0x01#8, 0x00#8]) ≠ .begin ∧ decode (.ctl 0x01000001#32 []) ≠ .begin := by decide

theorem witness_StatusCodesAreTheTables : Status.code .nrpnDiscarded = Status.code .nrpnDiscarded := by decide

theorem witness_IllegalConfigurationIsRefused :
    (RawCfg.mfrId ⟨true, [], 0#128, 64, 0⟩).length = 0 ∧
    RawCfg.maxSysexLen ⟨true, [0x7D#7], 0#128, 1, 0⟩ < (RawCfg.mfrId ⟨true, [0x7D#7], 0#128, 1, 0⟩).length + 1 ∧
    (1 ≤ (RawCfg.mfrId ⟨true, [0x7D#7], 0#128, 2, 0⟩).length ∧
      (RawCfg.mfrId ⟨true, [0x7D#7], 0#128, 2, 0⟩).length + 1 ≤
        RawCfg.maxSysexLen ⟨true, [0x7D#7], 0#128, 2, 0⟩) := by decide

end Sys2Proof.Tests
end

/-! The configuration check of R26: `RawCfg.configure` accepts exactly the legal settings, and what it accepts reads
back as what was set. -/

namespace Sys2Proof.Machine

/-- The registers of a configuration as R26 lists them, read through their accessors. -/
def RawCfg.ofCfg (c : Cfg) : RawCfg := ⟨c.nrpnPerChannel, c.mfrId, c.cmds, c.maxSysexLen, c.decodeCapacity⟩

/-- `P` is the length of the prefix (R8). -/
theorem prefixLen_eq_length_mfrId (c : Cfg) : c.prefixLen = c.mfrId.length := rfl

theorem RawCfg.legal_iff (r : RawCfg) :
    r.legal = true ↔ 1 ≤ r.mfrId.length ∧ r.mfrId.length + 1 ≤ r.maxSysexLen := by
  simp [RawCfg.legal]

theorem RawCfg.isSome_configure (r : RawCfg) : r.configure.isSome = r.legal := by
  obtain ⟨perChannel, _ | ⟨head, tail⟩, cmds, maxLen, capacity⟩ := r
  case nil => rfl
  case cons =>
    by_cases hlen : tail.length + 2 ≤ maxLen <;> simp [RawCfg.configure, RawCfg.legal, hlen]

theorem RawCfg.ofCfg_of_configure {r : RawCfg} {c : Cfg} (h : r.configure = some c) : RawCfg.ofCfg c = r := by
  obtain ⟨perChannel, _ | ⟨head, tail⟩, cmds, maxLen, capacity⟩ := r
  case nil => cases h
  case cons =>
    obtain ⟨hlen, rfl⟩ : tail.length + 2 ≤ maxLen ∧ _ = c := by simpa [RawCfg.configure] using h
    have hmax : tail.length + 1 + 1 + (maxLen - (tail.length + 2)) = maxLen := by omega
    simp [RawCfg.ofCfg, Cfg.mfrId, Cfg.maxSysexLen, Cfg.prefixLen, hmax]

/-- Settles O59: `configure` answers exactly on the legal settings, and its registers are those that were set. -/
theorem illegalConfigurationIsRefused : Obligations.IllegalConfigurationIsRefused := by
  intro r
  constructor
  · intro hillegal
    have hnot : ¬ r.legal = true := by rw [RawCfg.legal_iff]; omega
    rwa [← RawCfg.isSome_configure, Option.not_isSome_iff_eq_none] at hnot
  · intro hprefix hlen
    have hlegal : r.configure.isSome = true := by
      rw [RawCfg.isSome_configure, RawCfg.legal_iff]
      exact ⟨hprefix, hlen⟩
    obtain ⟨c, hc⟩ := Option.isSome_iff_exists.mp hlegal
    obtain rfl := RawCfg.ofCfg_of_configure hc
    exact ⟨c, hc, rfl, rfl, prefixLen_eq_length_mfrId c, rfl, rfl, rfl⟩

end Sys2Proof.Machine

/-! The state of the block: its bank, its reset values, what a step accepts, and the physical form of a field. -/

namespace Sys2Proof.Machine

/-! ## The bank (R24) -/

/-- A write on one channel of a per-channel bank is not read on another. -/
theorem NrpnBank.get_set_of_ne {b : NrpnBank} {c c' : Channel} (f : NrpnFields) (hb : b.isPerChannel = true)
    (hne : c' ≠ c) : (b.set c f).get c' = b.get c' := by
  cases b with
  | shared g => cases hb
  | perChannel sets =>
    have hidx : c.toNat ≠ c'.toNat := fun e => hne (BitVec.eq_of_toNat_eq e.symm)
    simp [NrpnBank.set, NrpnBank.get, hidx]

/-- Every channel of a shared bank reads the same set. -/
theorem NrpnBank.get_eq_get_of_shared {b : NrpnBank} (c c' : Channel) (hb : b.isPerChannel = false) :
    b.get c' = b.get c := by
  cases b with
  | shared f => rfl
  | perChannel sets => cases hb

theorem NrpnBank.length_sets (b : NrpnBank) : b.sets.length = if b.isPerChannel then 16 else 1 := by
  cases b <;> simp [NrpnBank.sets, NrpnBank.isPerChannel]

theorem State.isPerChannel_of_bankFits {s : State} (h : s.bankFits = true) :
    s.nrpn.isPerChannel = s.cfg.nrpnPerChannel := by
  simpa [State.bankFits] using h

/-- Settles O19: by the shape of the bank, which decides whether another channel reads its own set or the one
written. -/
theorem fieldSetsAreIndependentOrShared : Obligations.FieldSetsAreIndependentOrShared := by
  intro s c f hfits
  rw [← State.isPerChannel_of_bankFits hfits, NrpnBank.length_sets]
  refine ⟨fun hper => ?_, fun hshared => ?_, NrpnBank.isPerChannel_set _ _ _⟩
  · exact ⟨if_pos hper, NrpnBank.get_set_self _ _ _, fun _ hne => NrpnBank.get_set_of_ne f hper hne⟩
  · refine ⟨by simp [hshared], fun c' => ⟨NrpnBank.get_eq_get_of_shared c c' hshared, ?_⟩⟩
    have hset : (s.nrpn.set c f).isPerChannel = false := by rw [NrpnBank.isPerChannel_set, hshared]
    rw [NrpnBank.get_eq_get_of_shared c c' hset, NrpnBank.get_set_self]

/-! ## The physical form of a field (R25) -/

theorem physicalField_none_toNat : (physicalField none).toNat = 255 := rfl

theorem physicalField_some_toNat (v : Data7) : (physicalField (some v)).toNat = v.toNat := by
  have hv := v.isLt
  simp only [physicalField, BitVec.toNat_setWidth]; omega

theorem physicalField_injective : Function.Injective physicalField := by
  intro f g h
  have hnat : (physicalField f).toNat = (physicalField g).toNat := by rw [h]
  cases f with
  | none =>
    cases g with
    | none => rfl
    | some w => rw [physicalField_none_toNat, physicalField_some_toNat] at hnat; omega
  | some v =>
    rw [physicalField_some_toNat] at hnat
    cases g with
    | none => rw [physicalField_none_toNat] at hnat; omega
    | some w => rw [physicalField_some_toNat] at hnat; exact congrArg some (BitVec.eq_of_toNat_eq hnat)

/-- Settles O32: a value's form is below `0x80`, which sets it apart from `0xFF`. -/
theorem physicalFormIsFaithful : Obligations.PhysicalFormIsFaithful := by
  refine ⟨rfl, physicalField_some_toNat, fun f g h => physicalField_injective h, fun f => ?_⟩
  cases f with
  | none => rw [physicalField_none_toNat]; omega
  | some v => rw [physicalField_some_toNat]; omega

/-! ## Reset (R31, R260) -/

/-- Settles O46: the step of a RESET is `applyReset`, read off field by field. -/
theorem resetPutsEveryPieceOfStateToItsResetValue :
    Obligations.ResetPutsEveryPieceOfStateToItsResetValue := by
  intro s rest hinputs
  exact ⟨_, step_reset hinputs, rfl, NrpnBank.get_idle _, NrpnBank.isPerChannel_idle _, rfl, rfl, rfl, rfl, rfl⟩

/-- The configuration as built takes the default of R26, one set per channel (log entry 6). -/
@[simp] theorem State.reset_nrpn : State.reset.nrpn = NrpnBank.idle true := rfl

/-- Settles O47: the bank after reset is the idle one, with one set per channel. -/
theorem resetStateHoldsTheResetValues : Obligations.ResetStateHoldsTheResetValues := by
  refine ⟨rfl, fun c => ?_, rfl, NrpnBank.length_sets _⟩
  rw [State.reset_nrpn, NrpnBank.get_idle, NrpnFields.idle]

/-! ## Acceptance (R21, R60) -/

/-- What the `CV24` decoder answers is well formed: each side condition is the negation of an earlier row. -/
theorem decodeCv24_wf (S D1 D2 : Byte) : (decodeCv24 S D1 D2).wf = true := by
  unfold decodeCv24
  split_ifs with h8 h9 hvel hB h99 h98 h6 h38
  · rfl
  · rfl
  · simp [Instr.wf, hvel]
  · rfl
  · rfl
  · rfl
  · rfl
  · simp [Instr.wf, nrpnController, h99, h98, h6, h38]
  · simp [Instr.wf, kindSupported_eq, h8, h9, hB]

/-- The side condition of UNSUPPORTED_CTL, in terms of the word's fields. -/
theorem ctlReserved_eq (w : CtlWord) (I : List Byte) : ctlReserved w I =
    (ctlRsv w != 0x00#8 || !((ctlOpc w = 0x01#8 && ctlCap w = 0#16 && I.isEmpty) ||
      ctlOpc w = 0x02#8 || ctlOpc w = 0x03#8)) := rfl

/-- What the control-word decoder answers is well formed. -/
theorem decodeCtl_wf (w : CtlWord) (I : List Byte) : (decodeCtl w I).wf = true := by
  unfold decodeCtl
  split_ifs with hrsv hbegin hempty hdec henc
  · simp [Instr.wf, ctlReserved_eq, hrsv]
  · rfl
  · simp [Instr.wf, ctlReserved_eq, hbegin, not_and_or.mp hempty]
  · rfl
  · rfl
  · simp [Instr.wf, ctlReserved_eq, hbegin, hdec, henc]

theorem decode_wf (p : PortOp) : (decode p).wf = true := by
  match p with
  | .evt (.sx F) => rfl
  | .evt (.cv24 S D1 D2) => exact decodeCv24_wf S D1 D2
  | .ctl w I => exact decodeCtl_wf w I

/-- The step of an operation presented next is its meaning on the state that has accepted it. -/
theorem step_op_eq {s : State} {p : PortOp} {rest : List Input} (h : s.inputs = .op p :: rest) :
    step s = exec (decode p) (s.accept rest) := by
  simp only [step, h]

/-- Settles O44: the decoder answers well-formed operations only, and the state given is `accept` written out. -/
theorem stepRunsTheDecodedOperation : Obligations.StepRunsTheDecodedOperation := by
  rintro s i p rest hinputs rfl
  exact ⟨decode_wf p, step_op_eq hinputs⟩

end Sys2Proof.Machine

/-! The invariant of the block: it holds at reset, every operation keeps it, so every reachable state has it. -/

namespace Sys2Proof.Machine

/-! ## What each update of the state asks for -/

/-- An event-port output with a record is legal when its event and its record are, whether or not the record is
delivered. -/
theorem OpOutput.legal_evt_some {cfg : Cfg} {st : Status} {ev : Option AppEvent} {r : DiagRecord}
    (hfit : statusFitsEvent st ev = true) (hev : ev.all (AppEvent.legal cfg) = true) (hready : st ≠ .notReady)
    (hst : r.status = st) (hr : r.legal = true) (delivered : Bool) :
    (OpOutput.evt st ev (some ⟨r, delivered⟩)).legal cfg = true := by
  simp [OpOutput.legal, hfit, hev, hready, hst, hr]

theorem State.Inv.accept {s : State} (h : s.Inv) (rest : List Input) : (s.accept rest).Inv := h

theorem State.Inv.wire {s : State} (h : s.Inv) : State.Inv { s with wired := true } := h

/-- Presenting a legal output keeps the invariant. -/
theorem State.Inv.endEvt {s : State} (h : s.Inv) {st : Status} {ev : Option AppEvent} {r : Option DiagRecord}
    (hout : (OpOutput.evt st ev (r.map fun d => ⟨d, Config.freeDiagDelivered s.diagDraws⟩)).legal s.cfg = true) :
    (s.endEvt st ev r).Inv := by
  obtain ⟨hfits, hsets, houts⟩ := h
  refine ⟨by simpa [State.bankFits] using hfits, by simpa using hsets, ?_⟩
  rw [State.endEvt_cfg, State.endEvt_outputs, List.all_append, houts]
  simpa using hout

theorem State.Inv.endEvt_some {s : State} (h : s.Inv) {st : Status} {ev : Option AppEvent} {r : DiagRecord}
    (hfit : statusFitsEvent st ev = true) (hev : ev.all (AppEvent.legal s.cfg) = true) (hready : st ≠ .notReady)
    (hst : r.status = st) (hr : r.legal = true) : (s.endEvt st ev (some r)).Inv :=
  h.endEvt (OpOutput.legal_evt_some hfit hev hready hst hr _)

/-- Turning an operation away before BEGIN keeps the invariant (R171). -/
theorem State.Inv.notReady {s : State} (h : s.Inv) : (s.endEvt .notReady none none).Inv := h.endEvt rfl

/-- Responding on the control port with a legal output keeps the invariant. -/
theorem State.Inv.endCtl {s : State} (h : s.Inv) {st : Status} {out : List Byte}
    (hout : (OpOutput.ctl st out).legal s.cfg = true) : (s.endCtl st out).Inv := by
  obtain ⟨hfits, hsets, houts⟩ := h
  refine ⟨hfits, hsets, ?_⟩
  rw [State.endCtl_cfg, State.endCtl_outputs, List.all_append, houts]
  simpa using hout

/-- Writing a set that is between operations keeps the invariant. -/
theorem State.Inv.setFields {s : State} (h : s.Inv) (c : Channel) {f : NrpnFields} (hf : f.betweenOps = true) :
    State.Inv { s with nrpn := s.nrpn.set c f } := by
  obtain ⟨hfits, hsets, houts⟩ := h
  refine ⟨by simpa [State.bankFits] using hfits, List.all_eq_true.mpr fun g hg => ?_, houts⟩
  obtain rfl | hold := NrpnBank.mem_sets_set hg
  · exact hf
  · exact List.all_eq_true.mp hsets g hold

/-- In an invariant state the set that a channel reads is between operations. -/
theorem State.Inv.betweenOps_get {s : State} (h : s.Inv) (c : Channel) : (s.nrpn.get c).betweenOps = true := by
  obtain ⟨_, hsets, _⟩ := h
  exact List.all_eq_true.mp hsets _ (NrpnBank.get_mem_sets _ _)

/-- A state with an idle bank of the configured shape and legal outputs has the invariant. -/
theorem State.inv_of_idle {s : State} (hbank : s.nrpn = NrpnBank.idle s.cfg.nrpnPerChannel)
    (houts : s.outputs.all (OpOutput.legal s.cfg) = true) : s.Inv := by
  refine ⟨by simp [State.bankFits, hbank], List.all_eq_true.mpr fun f hf => ?_, houts⟩
  rw [hbank] at hf
  rw [NrpnBank.mem_sets_idle hf]; rfl

theorem State.Inv.applyReset {s : State} (h : s.Inv) : s.applyReset.Inv := by
  obtain ⟨_, _, houts⟩ := h
  exact State.inv_of_idle rfl houts

theorem State.start_inv (cfg : Cfg) (run : List Input) : (State.start cfg run).Inv := State.inv_of_idle rfl rfl

/-- Settles O50: at reset the bank is the idle one and nothing has been presented. -/
theorem invariantHoldsAtReset : Obligations.InvariantHoldsAtReset :=
  ⟨State.inv_of_idle rfl rfl, State.start_inv⟩

/-! ## The NRPN writes (R138 to R143) -/

/-- What the invariant asks of an NRPN write: a set between operations, and a status that goes with its event
(R222). -/
def NrpnResult.lawful (r : NrpnResult) : Prop :=
  r.fields.betweenOps = true ∧ statusFitsEvent r.status r.event = true ∧ r.status ≠ .notReady ∧
    ∀ cfg, r.event.all (AppEvent.legal cfg) = true

theorem writeIdMsb_lawful (f : NrpnFields) (v : Data7) : (writeIdMsb f v).lawful := by
  refine ⟨?_, rfl, nofun, fun _ => rfl⟩
  obtain ⟨a, _ | b, x, y⟩ := f <;> rfl

theorem writeIdLsb_lawful (f : NrpnFields) (v : Data7) : (writeIdLsb f v).lawful := by
  refine ⟨?_, rfl, nofun, fun _ => rfl⟩
  obtain ⟨_ | a, b, x, y⟩ := f <;> rfl

theorem writeValueMsb_lawful {f : NrpnFields} (hf : f.betweenOps = true) (c : Channel) (v : Data7) :
    (writeValueMsb f c v).lawful := by
  obtain ⟨_, e⟩ | ⟨a, b, x, y, _, e⟩ | ⟨a, b, x, _, e⟩ := writeValueMsb_cases f c v <;> rw [e]
  · exact ⟨hf, rfl, nofun, fun _ => rfl⟩
  · exact ⟨rfl, rfl, nofun, fun _ => rfl⟩
  · exact ⟨rfl, rfl, nofun, fun _ => rfl⟩

theorem writeValueLsb_lawful {f : NrpnFields} (hf : f.betweenOps = true) (c : Channel) (v : Data7) :
    (writeValueLsb f c v).lawful := by
  obtain ⟨_, e⟩ | ⟨a, b, x, y, _, e⟩ | ⟨a, b, y, _, e⟩ := writeValueLsb_cases f c v <;> rw [e]
  · exact ⟨hf, rfl, nofun, fun _ => rfl⟩
  · exact ⟨rfl, rfl, nofun, fun _ => rfl⟩
  · exact ⟨rfl, rfl, nofun, fun _ => rfl⟩

/-- Ending an NRPN operation with a lawful write keeps the invariant. -/
theorem State.Inv.endNrpn {s : State} (h : s.Inv) {op : EvtOpName} {r : NrpnResult} (c : Channel) (S d1 d2 : Byte)
    (hrec : ∀ st, (cvRecord op S d1 d2 st).legal = true) (hr : r.lawful) : (s.endNrpn op c S d1 d2 r).Inv := by
  obtain ⟨hf, hfit, hready, hev⟩ := hr
  exact (h.setFields c hf).endEvt_some hfit (hev _) hready rfl (hrec _)

/-! ## The shared shapes of an operation -/

section
variable {s t : State} {op : EvtOpName}

/-- A plain event operation keeps the invariant when its event is legal for the data bytes that pass the prologue. -/
theorem emitCv24_keeps_inv (hs : s.Inv) {S d1 d2 : Byte} {ev : AppEvent}
    (hrec : ∀ st, (cvRecord op S d1 d2 st).legal = true) (hfit : statusFitsEvent .ok (some ev) = true)
    (hev : highByte d1 = false → highByte d2 = false → ev.legal s.cfg = true)
    (h : emitCv24 op S d1 d2 ev s = .next t) : t.Inv := by
  obtain ⟨_, e⟩ | ⟨_, _, e⟩ | ⟨_, hlow, e⟩ := emitCv24_cases op S d1 d2 ev s <;> cases e.symm.trans h
  · exact hs.notReady
  · exact hs.endEvt_some rfl rfl nofun rfl (hrec _)
  · obtain ⟨h1, h2⟩ := Bool.or_eq_false_iff.mp hlow
    exact hs.endEvt_some hfit (hev h1 h2) nofun rfl (hrec _)

/-- An NRPN operation keeps the invariant when its write is lawful on a set between operations. -/
theorem nrpnCv24_keeps_inv (hs : s.Inv) {c : Channel} {d1 d2 : Byte} {write : NrpnFields → NrpnResult}
    (hrec : ∀ st, (cvRecord op (statusByte 0xB#4 c) d1 d2 st).legal = true)
    (hwrite : ∀ f : NrpnFields, f.betweenOps = true → (write f).lawful)
    (h : nrpnCv24 op c d1 d2 write s = .next t) : t.Inv := by
  obtain ⟨_, e⟩ | ⟨_, _, e⟩ | ⟨_, _, e⟩ := nrpnCv24_cases op c d1 d2 write s <;> cases e.symm.trans h
  · exact hs.notReady
  · exact hs.endEvt_some rfl rfl nofun rfl (hrec _)
  · exact hs.endNrpn c _ d1 d2 hrec (hwrite _ (hs.betweenOps_get c))

end

/-! ## The other operations -/

section
variable {s t : State}

theorem execSysex_keeps_inv (hs : s.Inv) {F : List Byte} (h : execSysex F s = .next t) : t.Inv := by
  obtain ⟨_, e⟩ | ⟨_, st, hst, e⟩ | ⟨_, _, b, _, ⟨hcmd, e⟩ | ⟨_, e⟩ | ⟨hcmd, payload, hlen, e⟩⟩ :=
    execSysex_cases F s <;> cases e.symm.trans h
  · exact hs.notReady
  · obtain rfl | rfl | rfl | rfl := hst <;> exact hs.endEvt_some rfl rfl nofun rfl rfl
  · exact hs.endEvt_some rfl (by simp [AppEvent.legal, hcmd]) nofun rfl rfl
  · exact hs.endEvt_some rfl rfl nofun rfl rfl
  · exact hs.endEvt_some rfl (by simp [AppEvent.legal, hcmd, hlen]) nofun rfl rfl

theorem execUnsupported_keeps_inv (hs : s.Inv) (S d1 d2 : Byte) (h : execUnsupported S d1 d2 s = .next t) :
    t.Inv := by
  cases hw : s.wired
  · simp only [execUnsupported, readyPrologue_of_unwired hw] at h
    cases h
    exact hs.notReady
  · simp only [execUnsupported, readyPrologue_of_wired hw] at h
    cases h
    exact hs.endEvt_some rfl rfl nofun rfl rfl

theorem execCodecDecode_keeps_inv (hs : s.Inv) {cap : Capacity} {I : List Byte}
    (h : execCodecDecode cap I s = .next t) : t.Inv := by
  cases h
  obtain ⟨_, e⟩ | ⟨_, _, e⟩ | ⟨_, _, e⟩ := decode7_cases I (capValue cap) <;> rw [e] <;> exact hs.endCtl rfl

theorem execCodecEncode_keeps_inv (hs : s.Inv) {cap : Capacity} {I : List Byte}
    (h : execCodecEncode cap I s = .next t) : t.Inv := by
  cases h
  obtain ⟨_, e⟩ | ⟨_, e⟩ := encode7_cases I (capValue cap) <;> rw [e] <;> exact hs.endCtl rfl

/-! ## Every operation and every step -/

/-- A data byte that passes the prologue carries the value `v` only when it is `v`. -/
theorem data7_ne {b : Byte} (hlow : highByte b = false) {v : Data7} (hne : b ≠ v.setWidth 8) : data7 b ≠ v := by
  rintro rfl
  have hb := (highByte_eq_false_iff b).mp hlow
  refine hne (BitVec.eq_of_toNat_eq ?_)
  rw [BitVec.toNat_setWidth, data7_toNat hb]; omega

theorem noteOn_legal {c : Channel} {d1 d2 : Byte} (cfg : Cfg) (hwf : (Instr.noteOn c d1 d2).wf = true)
    (h2 : highByte d2 = false) : (AppEvent.noteOn c (data7 d1) (data7 d2)).legal cfg = true := by
  have hvel : d2 ≠ 0x00#8 := by simpa [Instr.wf] using hwf
  simpa [AppEvent.legal] using data7_ne (v := 0#7) h2 hvel

theorem controlChange_legal {c : Channel} {d1 d2 : Byte} (cfg : Cfg) (hwf : (Instr.ccGeneric c d1 d2).wf = true)
    (h1 : highByte d1 = false) : (AppEvent.controlChange c (data7 d1) (data7 d2)).legal cfg = true := by
  obtain ⟨⟨⟨h99, h98⟩, h6⟩, h38⟩ : ((d1 ≠ 0x63#8 ∧ d1 ≠ 0x62#8) ∧ d1 ≠ 0x06#8) ∧ d1 ≠ 0x26#8 := by
    simpa [Instr.wf, nrpnController] using hwf
  simpa [AppEvent.legal] using
    ⟨⟨⟨data7_ne (v := 6#7) h1 h6, data7_ne (v := 38#7) h1 h38⟩, data7_ne (v := 98#7) h1 h98⟩,
      data7_ne (v := 99#7) h1 h99⟩

/-- Every well-formed operation keeps the invariant. -/
theorem exec_keeps_inv {i : Instr} (hwf : i.wf = true) (hs : s.Inv) (h : exec i s = .next t) : t.Inv := by
  cases i with
  | noteOff c d1 d2 => exact emitCv24_keeps_inv hs (fun _ => rfl) rfl (fun _ _ => rfl) h
  | noteOnVel0 c d1 => exact emitCv24_keeps_inv hs (fun _ => rfl) rfl (fun _ _ => rfl) h
  | noteOn c d1 d2 => exact emitCv24_keeps_inv hs (fun _ => rfl) rfl (fun _ h2 => noteOn_legal s.cfg hwf h2) h
  | ccNrpnIdMsb c d2 => exact nrpnCv24_keeps_inv hs (fun _ => rfl) (fun f _ => writeIdMsb_lawful f _) h
  | ccNrpnIdLsb c d2 => exact nrpnCv24_keeps_inv hs (fun _ => rfl) (fun f _ => writeIdLsb_lawful f _) h
  | ccDataEntryMsb c d2 => exact nrpnCv24_keeps_inv hs (fun _ => rfl) (fun _ hf => writeValueMsb_lawful hf c _) h
  | ccDataEntryLsb c d2 => exact nrpnCv24_keeps_inv hs (fun _ => rfl) (fun _ hf => writeValueLsb_lawful hf c _) h
  | ccGeneric c d1 d2 =>
    exact emitCv24_keeps_inv hs (fun _ => rfl) rfl (fun h1 _ => controlChange_legal s.cfg hwf h1) h
  | sysex F => exact execSysex_keeps_inv hs h
  | unsupported S d1 d2 => exact execUnsupported_keeps_inv hs S d1 d2 h
  | begin => cases h; exact hs.wire.endCtl rfl
  | codecDecode cap I => exact execCodecDecode_keeps_inv hs h
  | codecEncode cap I => exact execCodecEncode_keeps_inv hs h
  | unsupportedCtl w I => cases h; exact hs.endCtl rfl

theorem step_keeps_inv (hs : s.Inv) (h : step s = .next t) : t.Inv := by
  match hinputs : s.inputs with
  | [] =>
    simp only [step, hinputs] at h
    cases h
    exact hs
  | .reset :: rest =>
    rw [step_reset hinputs] at h
    cases h
    exact State.Inv.applyReset (s := { s with inputs := rest }) hs
  | .op p :: rest =>
    rw [step_op_eq hinputs] at h
    exact exec_keeps_inv (decode_wf p) (hs.accept rest) h

end

/-- Settles O51: a step is idle, a RESET, or a well-formed operation, and each keeps the invariant. -/
theorem everyStepKeepsTheInvariant : Obligations.EveryStepKeepsTheInvariant :=
  fun _ _ => step_keeps_inv

/-! ## Reachable states (R29, R132) -/

/-- A run that ends in a state has taken its first step into one. -/
theorem exists_step_of_run_succ {k : Nat} {s u : State} (h : Host.Core.run Sys2Proof.core (k + 1) s = .next u) :
    ∃ t, step s = .next t ∧ Host.Core.run Sys2Proof.core k t = .next u := by
  cases hstep : step s with
  | next t => exact ⟨t, rfl, (run_succ k hstep).symm.trans h⟩
  | fault r =>
    have hcore : Sys2Proof.core.step s = .fault r := hstep
    simp [Host.Core.run, hcore] at h
  | refused r =>
    have hcore : Sys2Proof.core.step s = .refused r := hstep
    simp [Host.Core.run, hcore] at h

/-- What every step keeps, every run keeps. -/
theorem run_induction {P : State → Prop} (hstep : ∀ s t, P s → step s = .next t → P t) {k : Nat} {s t : State}
    (hs : P s) (h : Host.Core.run Sys2Proof.core k s = .next t) : P t := by
  induction k generalizing s with
  | zero =>
    rw [run_zero] at h
    cases h
    exact hs
  | succ k ih =>
    obtain ⟨u, hu, hrun⟩ := exists_step_of_run_succ h
    exact ih (hstep s u hs hu) hrun

theorem NrpnFields.betweenOps_iff (f : NrpnFields) : f.betweenOps = true ↔
    f.phase = some .idle ∨ f.phase = some .identifierPartial ∨ f.phase = some .identifierComplete ∨
      f.phase = some .valuePartial := by
  simp [NrpnFields.betweenOps, or_assoc]

/-- R29: a set in one of the four phases has a value only with a complete identifier, since the table of R131 gives a
value with fewer than two identifier fields no phase. -/
theorem NrpnFields.identifier_of_value {f : NrpnFields} (hf : f.betweenOps = true)
    (hval : f.valueMsb ≠ none ∨ f.valueLsb ≠ none) : f.identifierMsb ≠ none ∧ f.identifierLsb ≠ none := by
  obtain ⟨_ | a, _ | b, x, y⟩ := f
  case some.some => exact ⟨nofun, nofun⟩
  all_goals
    cases x <;> cases y <;>
      simp [NrpnFields.betweenOps, NrpnFields.phase, NrpnFields.idCount, NrpnFields.valCount] at hf hval

/-- Settles O52: a reachable state has the invariant, whose clause on the sets gives both claims. -/
theorem reachableFieldSetsAreInAPhase : Obligations.ReachableFieldSetsAreInAPhase := by
  intro cfg run n t hrun c
  have hinv : t.Inv := run_induction (fun _ _ => step_keeps_inv) (State.start_inv cfg run) hrun
  have hbetween := hinv.betweenOps_get c
  exact ⟨NrpnFields.identifier_of_value hbetween, (NrpnFields.betweenOps_iff _).mp hbetween⟩

end Sys2Proof.Machine

/-! What each operation reads and writes (R34). For each row of the table: the answer is one and the same over all
states that agree on what the row lists as read, and the next state differs only in what it lists as written. -/

namespace Sys2Proof.Machine
open Sys2Proof.Claims

/-! ## Plain event operations -/

/-- `wired` decides whether the prologue ends an operation, and with what. -/
theorem cv24Prologue_answer (op : EvtOpName) (S d1 d2 : Byte) (w : Bool) :
    (∃ st r, ∀ s : State, s.wired = w → cv24Prologue op S d1 d2 s = some (s.endEvt st none r)) ∨
      ∀ s : State, s.wired = w → cv24Prologue op S d1 d2 s = none := by
  cases w with
  | false =>
    exact .inl ⟨.notReady, none, fun s hw => by simp only [cv24Prologue, readyPrologue_of_unwired hw]⟩
  | true =>
    cases hb : highByte d1 || highByte d2
    · exact .inr fun s hw => by simp [cv24Prologue, readyPrologue_of_wired hw, hb]
    · exact .inl ⟨.malformedByte, some (cvRecord op S d1 d2 .malformedByte), fun s hw => by
        simp [cv24Prologue, readyPrologue_of_wired hw, hb]⟩

/-- The answer of a plain event operation is fixed by `wired`. -/
theorem emitCv24_answer (op : EvtOpName) (S d1 d2 : Byte) (ev : AppEvent) (w : Bool) :
    ∃ st ev' r, ∀ s : State, s.wired = w → emitCv24 op S d1 d2 ev s = .next (s.endEvt st ev' r) := by
  obtain ⟨st, r, h⟩ | h := cv24Prologue_answer op S d1 d2 w
  · exact ⟨st, none, r, fun s hw => by simp only [emitCv24, h s hw]⟩
  · exact ⟨.ok, some ev, some (cvRecord op S d1 d2 .ok), fun s hw => by simp only [emitCv24, h s hw]⟩

/-- The answer of UNSUPPORTED is fixed by `wired`. -/
theorem execUnsupported_answer (S d1 d2 : Byte) (w : Bool) :
    ∃ st r, ∀ s : State, s.wired = w → execUnsupported S d1 d2 s = .next (s.endEvt st none r) := by
  cases w with
  | false => exact ⟨.notReady, none, fun s hw => by simp only [execUnsupported, readyPrologue_of_unwired hw]⟩
  | true =>
    exact ⟨.unsupportedEvent, some (unsupportedRecord S), fun s hw => by
      simp only [execUnsupported, readyPrologue_of_wired hw]⟩

/-! ## SYSEX -/

/-- What SYSEX answers once its command byte is known is fixed by the configuration. -/
theorem sysexCommand_answer (F : List Byte) (cmd : Data7) (cfg : Cfg) :
    ∃ st ev r, ∀ s : State, s.cfg = cfg → sysexCommand F cmd s = s.endEvt st ev r := by
  unfold sysexCommand
  cases hcmd : cfg.hasCmd cmd
  · exact ⟨_, _, _, fun s hc => by simp only [hc, hcmd, Bool.not_false, ↓reduceIte]; rfl⟩
  · cases hdec : decode7 (slice F (cfg.prefixLen + 1) F.length) cfg.decodeCapacity <;>
      exact ⟨_, _, _, fun s hc => by simp only [hc, hcmd, hdec, Bool.not_true, Bool.false_eq_true, ↓reduceIte]; rfl⟩

/-- The answer of SYSEX is fixed by `wired` and the configuration. -/
theorem execSysex_answer (F : List Byte) (w : Bool) (cfg : Cfg) :
    ∃ st ev r, ∀ s : State, s.wired = w → s.cfg = cfg → execSysex F s = .next (s.endEvt st ev r) := by
  cases w with
  | false =>
    exact ⟨.notReady, none, none, fun s hw _ => by simp only [execSysex, readyPrologue_of_unwired hw]⟩
  | true =>
    by_cases hlong : F.length > cfg.maxSysexLen
    · exact ⟨_, _, _, fun s hw hc => by simp only [execSysex, readyPrologue_of_wired hw, hc, if_pos hlong]; rfl⟩
    by_cases hbad : F.any highByte = true
    · exact ⟨_, _, _, fun s hw hc => by
        simp only [execSysex, readyPrologue_of_wired hw, hc, if_neg hlong, if_pos hbad]; rfl⟩
    by_cases hshort : F.length < cfg.prefixLen + 1
    · exact ⟨_, _, _, fun s hw hc => by
        simp only [execSysex, readyPrologue_of_wired hw, hc, if_neg hlong, if_neg hbad, if_pos hshort]; rfl⟩
    by_cases hforeign : slice F 0 cfg.prefixLen ≠ mfrBytes cfg
    · exact ⟨_, _, _, fun s hw hc => by
        simp only [execSysex, readyPrologue_of_wired hw, hc, if_neg hlong, if_neg hbad, if_neg hshort,
          if_pos hforeign]; rfl⟩
    have hread : frameRead F cfg.prefixLen = some (F[cfg.prefixLen]'(by omega)) := List.getElem?_eq_getElem _
    obtain ⟨st, ev, r, hanswer⟩ := sysexCommand_answer F (data7 (F[cfg.prefixLen]'(by omega))) cfg
    exact ⟨st, ev, r, fun s hw hc => by
      simp only [execSysex, readyPrologue_of_wired hw, hc, if_neg hlong, if_neg hbad, if_neg hshort,
        if_neg hforeign, hread, hanswer s hc]⟩

/-! ## The rows of the table -/

/-- An event-port operation that is none of the NrpnAssembler's writes no state; its answer is fixed by `wired`, and
for SYSEX by the configuration too. -/
theorem exec_evt {i : Instr} (hport : i.onEvtPort = true) (hchan : nrpnChannel i = none) (w : Bool) (cfg : Cfg) :
    ∃ st ev r, ∀ s : State, s.wired = w → (∀ F, i = .sysex F → s.cfg = cfg) →
      exec i s = .next (s.endEvt st ev r) := by
  have emits : ∀ op S d1 d2 ev, (∀ s, exec i s = emitCv24 op S d1 d2 ev s) → ∃ st ev r, ∀ s : State,
      s.wired = w → (∀ F, i = .sysex F → s.cfg = cfg) → exec i s = .next (s.endEvt st ev r) := by
    intro op S d1 d2 ev hexec
    obtain ⟨st, ev', r, h⟩ := emitCv24_answer op S d1 d2 ev w
    exact ⟨st, ev', r, fun s hw _ => (hexec s).trans (h s hw)⟩
  cases i with
  | noteOff c d1 d2 => exact emits _ _ _ _ _ fun _ => rfl
  | noteOnVel0 c d1 => exact emits _ _ _ _ _ fun _ => rfl
  | noteOn c d1 d2 => exact emits _ _ _ _ _ fun _ => rfl
  | ccGeneric c d1 d2 => exact emits _ _ _ _ _ fun _ => rfl
  | sysex F =>
    obtain ⟨st, ev, r, h⟩ := execSysex_answer F w cfg
    exact ⟨st, ev, r, fun s hw hcfg => h s hw (hcfg F rfl)⟩
  | unsupported S d1 d2 =>
    obtain ⟨st, r, h⟩ := execUnsupported_answer S d1 d2 w
    exact ⟨st, none, r, fun s hw _ => h s hw⟩
  | ccNrpnIdMsb | ccNrpnIdLsb | ccDataEntryMsb | ccDataEntryLsb => cases hchan
  | begin | codecDecode | codecEncode | unsupportedCtl => cases hport

/-- An NRPN operation on channel `c` writes `nrpn[c]`; the set it leaves there and its answer are fixed by `wired` and
the set it found. A prologue that ends it leaves the set it found. -/
theorem nrpnCv24_answer (op : EvtOpName) (c : Channel) (d1 d2 : Byte) (write : NrpnFields → NrpnResult) (w : Bool)
    (f : NrpnFields) : ∃ st ev r f', ∀ s : State, s.wired = w → s.nrpn.get c = f →
      nrpnCv24 op c d1 d2 write s = .next ({ s with nrpn := s.nrpn.set c f' }.endEvt st ev r) := by
  obtain ⟨st, r, h⟩ | h := cv24Prologue_answer op (statusByte 0xB#4 c) d1 d2 w
  · exact ⟨st, none, r, f, fun s hw hf => by
      simp only [nrpnCv24, h s hw, ← hf, NrpnBank.set_get_self]⟩
  · exact ⟨(write f).status, (write f).event, some (cvRecord op (statusByte 0xB#4 c) d1 d2 (write f).status),
      (write f).fields, fun s hw hf => by simp only [nrpnCv24, h s hw, hf]; rfl⟩

/-- The operations with an NRPN channel are the NrpnAssembler's. -/
theorem exec_eq_nrpnCv24 {i : Instr} {c : Channel} (h : nrpnChannel i = some c) :
    ∃ op d1 d2 write, exec i = nrpnCv24 op c d1 d2 write := by
  cases i <;> cases h
  case ccNrpnIdMsb d2 => exact ⟨.ccNrpnIdMsb, 0x63#8, d2, fun f => writeIdMsb f (data7 d2), rfl⟩
  case ccNrpnIdLsb d2 => exact ⟨.ccNrpnIdLsb, 0x62#8, d2, fun f => writeIdLsb f (data7 d2), rfl⟩
  case ccDataEntryMsb d2 => exact ⟨.ccDataEntryMsb, 0x06#8, d2, fun f => writeValueMsb f c (data7 d2), rfl⟩
  case ccDataEntryLsb d2 => exact ⟨.ccDataEntryLsb, 0x26#8, d2, fun f => writeValueLsb f c (data7 d2), rfl⟩

theorem exec_nrpn {i : Instr} {c : Channel} (h : nrpnChannel i = some c) (w : Bool) (f : NrpnFields) :
    ∃ st ev r f', ∀ s : State, s.wired = w → s.nrpn.get c = f →
      exec i s = .next ({ s with nrpn := s.nrpn.set c f' }.endEvt st ev r) := by
  obtain ⟨op, d1, d2, write, hexec⟩ := exec_eq_nrpnCv24 h
  rw [hexec]
  exact nrpnCv24_answer op c d1 d2 write w f

/-- The response of a control-port operation is the same from every state; BEGIN sets `wired`, and nothing else is
written. -/
theorem exec_ctl {i : Instr} (hport : i.onEvtPort = false) : ∃ st out, ∀ s : State,
    exec i s = .next ({ s with wired := s.wired || decide (i = Instr.begin) }.endCtl st out) := by
  have respond : ∀ r : CodecResult, ∃ st out, ∀ s : State, s.respond r = s.endCtl st out := by
    intro r; cases r <;> exact ⟨_, _, fun _ => rfl⟩
  cases i with
  | begin => exact ⟨.ok, [], fun s => by simp [exec, execBegin]⟩
  | codecDecode cap I =>
    obtain ⟨st, out, h⟩ := respond (decode7 I (capValue cap))
    exact ⟨st, out, fun s => by simp [exec, execCodecDecode, h]⟩
  | codecEncode cap I =>
    obtain ⟨st, out, h⟩ := respond (encode7 I (capValue cap))
    exact ⟨st, out, fun s => by simp [exec, execCodecEncode, h]⟩
  | unsupportedCtl word I => exact ⟨.unsupportedEvent, [], fun s => by simp [exec, execUnsupportedCtl]⟩
  | _ => cases hport

/-! ## Writes -/

/-- What R34 lets an operation write. -/
theorem exec_writes {i : Instr} {s t : State} (h : exec i s = .next t) :
    t.cfg = s.cfg ∧ (i ≠ .begin → t.wired = s.wired) ∧ (i = .begin → t.wired = true) ∧
      (nrpnChannel i = none → t.nrpn = s.nrpn) ∧
      ∀ c, nrpnChannel i = some c → ∃ f, t.nrpn = s.nrpn.set c f := by
  cases hchan : nrpnChannel i with
  | some c =>
    obtain ⟨st, ev, r, f, e⟩ := exec_nrpn hchan s.wired (s.nrpn.get c)
    cases (e s rfl rfl).symm.trans h
    refine ⟨by simp, fun _ => by simp, ?_, nofun, fun c' hc' => ⟨f, ?_⟩⟩
    · rintro rfl; cases hchan
    · cases hc'; simp
  | none =>
    cases hport : i.onEvtPort
    · obtain ⟨st, out, e⟩ := exec_ctl hport
      cases (e s).symm.trans h
      exact ⟨rfl, fun hne => by simp [hne], fun he => by simp [he], fun _ => rfl, nofun⟩
    · obtain ⟨st, ev, r, e⟩ := exec_evt hport hchan s.wired s.cfg
      cases (e s rfl fun _ _ => rfl).symm.trans h
      refine ⟨by simp, fun _ => by simp, ?_, fun _ => by simp, nofun⟩
      rintro rfl; cases hport

/-! ## Reads -/

/-- Two states from which an operation ends with the same status, event and record give the same answer, whatever else
it writes and whichever of the two records is delivered (R208). -/
theorem sameAnswer_of_endEvt {i : Instr} {s₁ s₂ u₁ u₂ : State} {st : Status} {ev : Option AppEvent}
    {r : Option DiagRecord} (h₁ : exec i s₁ = .next (u₁.endEvt st ev r)) (h₂ : exec i s₂ = .next (u₂.endEvt st ev r))
    (hout₁ : u₁.outputs = s₁.outputs) (hout₂ : u₂.outputs = s₂.outputs) : SameAnswer i s₁ s₂ := by
  have hp₁ := State.endEvt_outputs u₁ st ev r
  have hp₂ := State.endEvt_outputs u₂ st ev r
  rw [hout₁] at hp₁
  rw [hout₂] at hp₂
  exact ⟨_, _, ⟨_, h₁, hp₁⟩, ⟨_, h₂, hp₂⟩, rfl, by cases r <;> rfl⟩

theorem sameAnswer_ctl {i : Instr} (hport : i.onEvtPort = false) (s₁ s₂ : State) : SameAnswer i s₁ s₂ := by
  obtain ⟨st, out, h⟩ := exec_ctl hport
  exact ⟨_, _, ⟨_, h s₁, rfl⟩, ⟨_, h s₂, rfl⟩, rfl, rfl⟩

theorem sameAnswer_evt {i : Instr} {s₁ s₂ : State} (hport : i.onEvtPort = true) (hchan : nrpnChannel i = none)
    (hw : s₁.wired = s₂.wired) (hcfg : ∀ F, i = .sysex F → s₁.cfg = s₂.cfg) : SameAnswer i s₁ s₂ := by
  obtain ⟨st, ev, r, h⟩ := exec_evt hport hchan s₂.wired s₂.cfg
  exact sameAnswer_of_endEvt (h s₁ hw hcfg) (h s₂ rfl fun _ _ => rfl) rfl rfl

/-- An NRPN operation gives the same answer, and leaves the same set, from two states that agree on `wired` and on the
set of its channel. -/
theorem sameAnswer_nrpn {i : Instr} {c : Channel} {s₁ s₂ : State} (hchan : nrpnChannel i = some c)
    (hw : s₁.wired = s₂.wired) (hget : s₁.nrpn.get c = s₂.nrpn.get c) : SameAnswer i s₁ s₂ ∧
      ∀ t₁ t₂, exec i s₁ = .next t₁ → exec i s₂ = .next t₂ → t₁.nrpn.get c = t₂.nrpn.get c := by
  obtain ⟨st, ev, r, f, h⟩ := exec_nrpn hchan s₂.wired (s₂.nrpn.get c)
  refine ⟨sameAnswer_of_endEvt (h s₁ hw hget) (h s₂ rfl rfl) rfl rfl, fun t₁ t₂ h₁ h₂ => ?_⟩
  cases (h s₁ hw hget).symm.trans h₁
  cases (h s₂ rfl rfl).symm.trans h₂
  simp

/-- Settles O54: row by row, from what each kind of operation writes and what fixes its answer. -/
theorem operationsReadAndWriteWhatTheTableSays : Obligations.OperationsReadAndWriteWhatTheTableSays := by
  refine ⟨fun i s t => exec_writes, fun i s₁ s₂ hport => sameAnswer_ctl hport s₁ s₂, ?_, ?_, ?_, ?_⟩
  · intro i s₁ s₂ hw hport hchan hsysex
    exact sameAnswer_evt hport hchan hw fun F e => absurd e (hsysex F)
  · intro F s₁ s₂ hw hcfg
    exact sameAnswer_evt rfl rfl hw fun _ _ => hcfg
  · intro i c s₁ s₂ hchan hw hget
    exact sameAnswer_nrpn hchan hw hget
  · intro s₁ s₂ hcfg
    exact ⟨rfl, by simp [hcfg], rfl⟩

end Sys2Proof.Machine

/-! The byte forms of a message and of a control word (R55, R76), read back. -/

namespace Sys2Proof

theorem evtMsgOfBytes_cv24 {S : Byte} (D1 D2 : Byte) (hS : S ≠ 0xF0#8) :
    evtMsgOfBytes [S, D1, D2] = .ok (.cv24 S D1 D2) := if_neg hS

theorem evtMsgOfBytes_sx (F : List Byte) : evtMsgOfBytes (0xF0#8 :: F) = .ok (.sx F) := rfl

/-- Four bytes are the fields of a control word, `CAP` being the two low ones (R55, R77). -/
theorem ctlWordOfBytes_eq_ctlWord (b3 b2 b1 b0 : Byte) :
    ctlWordOfBytes b3 b2 b1 b0 = ctlWord b3 b2 (b1 ++ b0) := BitVec.append_assoc

/-- The bytes of a control word are its fields, `CAP` being the two low ones (R55, R77). -/
theorem ctlWordBytes_eq_fields (w : CtlWord) :
    ctlWordBytes w = [ctlOpc w, ctlRsv w, (ctlCap w).extractLsb' 8 8, (ctlCap w).extractLsb' 0 8] := by
  simp [ctlWordBytes, ctlOpc, ctlRsv, ctlCap, BitVec.extractLsb'_extractLsb'_of_le]

theorem ctlWordBytes_ctlWordOfBytes (b3 b2 b1 b0 : Byte) :
    ctlWordBytes (ctlWordOfBytes b3 b2 b1 b0) = [b3, b2, b1, b0] := by
  rw [ctlWordOfBytes_eq_ctlWord, ctlWordBytes_eq_fields, ctlOpc_ctlWord, ctlRsv_ctlWord, ctlCap_ctlWord,
    BitVec.extractLsb'_append_eq_left, BitVec.extractLsb'_append_eq_right]

theorem ctlWordOfBytes_toNat (b3 b2 b1 b0 : Byte) : (ctlWordOfBytes b3 b2 b1 b0).toNat =
    b3.toNat * 2 ^ 24 + b2.toNat * 2 ^ 16 + b1.toNat * 2 ^ 8 + b0.toNat := by
  rw [ctlWordOfBytes_eq_ctlWord, ctlWord_toNat, toNat_append_eq, ← Nat.add_assoc]

/-- Settles O5: the first byte of a message tells its form; a control word's bytes are its fields. -/
theorem messagesAreReadBackFromTheirBytes : Obligations.MessagesAreReadBackFromTheirBytes :=
  ⟨fun _ D1 D2 hS => evtMsgOfBytes_cv24 D1 D2 hS, evtMsgOfBytes_sx, fun b3 b2 b1 b0 =>
    ⟨ctlWordBytes_ctlWordOfBytes b3 b2 b1 b0, ctlWordOfBytes_toNat b3 b2 b1 b0⟩⟩

end Sys2Proof

/-! The two input ports commute but for BEGIN (R60, R226): an event-port operation's answer does not depend on what
the control port has presented, nor the reverse, and the two append to different sequences of an observation. -/

namespace Sys2Proof.Machine
open Sys2Proof.Claims

/-! ## What each update adds to an observation (R281) -/

@[simp] theorem State.observe_accept (s : State) (rest : List Input) : (s.accept rest).observe = s.observe := rfl

theorem State.observe_setNrpn (s : State) (bank : NrpnBank) :
    State.observe { s with nrpn := bank } = { s.observe with nrpn := bank } := rfl

theorem State.observe_endEvt (s : State) (st : Status) (ev : Option AppEvent) (r : Option DiagRecord) :
    (s.endEvt st ev r).observe = { s.observe with
      statuses := s.observe.statuses ++ [st], events := s.observe.events ++ ev.toList } := by
  cases ev <;> simp [State.observe, State.evtStatuses, State.appEvents, State.responses, OpOutput.evtStatus,
    OpOutput.appEvent, OpOutput.response]

theorem State.observe_endCtl (s : State) (st : Status) (out : List Byte) :
    (s.endCtl st out).observe = { s.observe with responses := s.observe.responses ++ [(st, out)] } := by
  simp [State.observe, State.evtStatuses, State.appEvents, State.responses, OpOutput.evtStatus,
    OpOutput.appEvent, OpOutput.response]

/-! ## The operations of each port (R70) -/

theorem onEvtPort_decode_evt (m : EvtMsg) : (decode (.evt m)).onEvtPort = true := by
  cases m with
  | sx F => rfl
  | cv24 S D1 D2 =>
    change (decodeCv24 S D1 D2).onEvtPort = true
    unfold decodeCv24
    split_ifs <;> rfl

theorem onEvtPort_decode_ctl (w : CtlWord) (I : List Byte) : (decode (.ctl w I)).onEvtPort = false := by
  change (decodeCtl w I).onEvtPort = false
  unfold decodeCtl
  split_ifs <;> rfl

/-- What an event-port operation presents, and the bank it leaves, are fixed by `wired`, the bank and the
configuration (R34). -/
theorem exec_evtPort {i : Instr} (hport : i.onEvtPort = true) (s₀ : State) : ∃ st ev r bank, ∀ s : State,
    s.wired = s₀.wired → s.nrpn = s₀.nrpn → s.cfg = s₀.cfg →
      exec i s = .next ({ s with nrpn := bank }.endEvt st ev r) := by
  cases hchan : nrpnChannel i with
  | none =>
    obtain ⟨st, ev, r, h⟩ := exec_evt hport hchan s₀.wired s₀.cfg
    exact ⟨st, ev, r, s₀.nrpn, fun s hw hbank hcfg => by rw [h s hw fun _ _ => hcfg, ← hbank]⟩
  | some c =>
    obtain ⟨st, ev, r, f, h⟩ := exec_nrpn hchan s₀.wired (s₀.nrpn.get c)
    exact ⟨st, ev, r, s₀.nrpn.set c f, fun s hw hbank _ => by rw [h s hw (by rw [hbank]), hbank]⟩

/-- A control-port operation other than BEGIN presents one response, the same from every state (R34). -/
theorem exec_ctl_of_ne_begin {i : Instr} (hport : i.onEvtPort = false) (hne : i ≠ .begin) : ∃ st out, ∀ s : State,
    exec i s = .next (s.endCtl st out) := by
  obtain ⟨st, out, h⟩ := exec_ctl hport
  exact ⟨st, out, fun s => by simp [h s, hne]⟩

/-! ## The two orders -/

/-- A run of two operations: the second is performed on the state the first one leaves. -/
theorem after_pair {s t u : State} {p q : PortOp}
    (hp : exec (decode p) (State.accept { s with inputs := [.op p, .op q] } [.op q]) = .next t)
    (hinputs : t.inputs = [.op q]) (hq : exec (decode q) (t.accept []) = .next u) :
    After s [.op p, .op q] u := by
  have hfirst : step { s with inputs := [.op p, .op q] } = .next t := step_op rfl hp
  have hsecond : step t = .next u := step_op hinputs hq
  exact (run_succ 1 hfirst).trans ((run_succ 0 hsecond).trans (run_zero u))

/-- Settles O57: both orders present the same event-port output and the same response, on different sequences. -/
theorem portOrderIsInvisibleExceptForBegin : Obligations.PortOrderIsInvisibleExceptForBegin := by
  intro s m w I hbegin
  obtain ⟨st, ev, r, bank, hevt⟩ := exec_evtPort (onEvtPort_decode_evt m) s
  obtain ⟨st', out, hctl⟩ := exec_ctl_of_ne_begin (onEvtPort_decode_ctl w I) hbegin
  refine ⟨_, _, after_pair (hevt _ rfl rfl rfl) (State.endEvt_inputs ..) (hctl _),
    after_pair (hctl _) rfl (hevt _ rfl rfl rfl), ?_, ?_, ?_⟩
  · simp only [State.observe_endEvt, State.observe_endCtl, State.observe_setNrpn, State.observe_accept]
    rfl
  · simp
  · simp

end Sys2Proof.Machine

/-! Decoding and encoding are inverse to each other (R71 to R85), and the reserved encodings are refused (R81). -/

namespace Sys2Proof.Machine

/-! ## Decoding what was encoded -/

/-- A status byte of a reserved kind decodes to UNSUPPORTED (R81, R83). -/
theorem decodeCv24_of_reserved {S : Byte} (D1 D2 : Byte) (h : kindSupported S = false) :
    decodeCv24 S D1 D2 = .unsupported S D1 D2 := by
  rw [kindSupported_eq] at h
  simp only [Bool.or_eq_false_iff, decide_eq_false_iff_not] at h
  obtain ⟨⟨h8, h9⟩, hB⟩ := h
  simp only [decodeCv24, if_neg h8, if_neg h9, if_neg hB]

/-- A control word that no other row matches decodes to UNSUPPORTED_CTL (R81, R84). -/
theorem decodeCtl_of_reserved {w : CtlWord} {I : List Byte} (h : ctlReserved w I = true) :
    decodeCtl w I = .unsupportedCtl w I := by
  rw [ctlReserved_eq] at h
  unfold decodeCtl
  split_ifs with hrsv hbegin hempty hdec henc
  · rfl
  · simp [not_not.mp hrsv, hbegin, hempty] at h
  · rfl
  · simp [not_not.mp hrsv, hdec] at h
  · simp [not_not.mp hrsv, henc] at h
  · rfl

/-- The decoder inverts the encoder on well-formed operations: each row's encoding is matched by that row, because its
side condition keeps it from the rows before. -/
theorem decode_encode {i : Instr} (hwf : i.wf = true) : decode (encode i) = i := by
  cases i with
  | noteOff c d1 d2 => simp [encode, decode, decodeEvt, decodeCv24]
  | noteOnVel0 c d1 => simp [encode, decode, decodeEvt, decodeCv24]
  | noteOn c d1 d2 =>
    have hvel : d2 ≠ 0x00#8 := by simpa [Instr.wf] using hwf
    simp [encode, decode, decodeEvt, decodeCv24, hvel]
  | ccNrpnIdMsb c d2 => simp [encode, decode, decodeEvt, decodeCv24]
  | ccNrpnIdLsb c d2 => simp [encode, decode, decodeEvt, decodeCv24]
  | ccDataEntryMsb c d2 => simp [encode, decode, decodeEvt, decodeCv24]
  | ccDataEntryLsb c d2 => simp [encode, decode, decodeEvt, decodeCv24]
  | ccGeneric c d1 d2 =>
    obtain ⟨h99, h98, h6, h38⟩ : d1 ≠ 0x63#8 ∧ d1 ≠ 0x62#8 ∧ d1 ≠ 0x06#8 ∧ d1 ≠ 0x26#8 := by
      simpa [Instr.wf, nrpnController, and_assoc] using hwf
    simp [encode, decode, decodeEvt, decodeCv24, h99, h98, h6, h38]
  | sysex F => rfl
  | unsupported S d1 d2 => exact decodeCv24_of_reserved d1 d2 (by simpa [Instr.wf] using hwf)
  | begin => simp [encode, decode, decodeCtl]
  | codecDecode cap I => simp [encode, decode, decodeCtl]
  | codecEncode cap I => simp [encode, decode, decodeCtl]
  | unsupportedCtl w I => exact decodeCtl_of_reserved hwf

/-- Settles O1: by cases on the operation, its side condition ruling out the rows before its own. -/
theorem decodeOfEncodeGivesTheOperationBack : Obligations.DecodeOfEncodeGivesTheOperationBack :=
  fun _ hwf => decode_encode hwf

/-! ## Encoding what was decoded -/

theorem statusByte_of_statusKind {S : Byte} {k : BitVec 4} (h : statusKind S = k) :
    statusByte k (statusChannel S) = S := h ▸ statusByte_fields S

theorem ctlWord_of_fields {w : CtlWord} {opc rsv : Byte} {cap : Capacity} (hopc : ctlOpc w = opc)
    (hrsv : ctlRsv w = rsv) (hcap : ctlCap w = cap) : ctlWord opc rsv cap = w := by
  subst hopc hrsv hcap
  exact ctlWord_fields w

theorem encode_decodeCv24 (S D1 D2 : Byte) : encode (decodeCv24 S D1 D2) = .evt (.cv24 S D1 D2) := by
  unfold decodeCv24
  split_ifs with h8 h9 hvel hB h99 h98 h6 h38
  · simp only [encode, statusByte_of_statusKind h8]
  · simp only [encode, statusByte_of_statusKind h9, hvel]
  · simp only [encode, statusByte_of_statusKind h9]
  · simp only [encode, statusByte_of_statusKind hB, h99]
  · simp only [encode, statusByte_of_statusKind hB, h98]
  · simp only [encode, statusByte_of_statusKind hB, h6]
  · simp only [encode, statusByte_of_statusKind hB, h38]
  · simp only [encode, statusByte_of_statusKind hB]
  · rfl

theorem encode_decodeCtl (w : CtlWord) (I : List Byte) : encode (decodeCtl w I) = .ctl w I := by
  unfold decodeCtl
  split_ifs with hrsv hbegin hempty hdec henc
  · rfl
  · obtain ⟨hcap, rfl⟩ := hempty
    rw [encode, ctlWord_of_fields hbegin (not_not.mp hrsv) hcap]
  · rfl
  · rw [encode, ctlWord_of_fields hdec (not_not.mp hrsv) rfl]
  · rw [encode, ctlWord_of_fields henc (not_not.mp hrsv) rfl]
  · rfl

theorem encode_decode (p : PortOp) : encode (decode p) = p := by
  match p with
  | .evt (.sx F) => rfl
  | .evt (.cv24 S D1 D2) => exact encode_decodeCv24 S D1 D2
  | .ctl w I => exact encode_decodeCtl w I

/-- Settles O2: every row keeps each field of the encoding as an operand or tests it against its value. -/
theorem encodeOfDecodeGivesTheEncodingBack : Obligations.EncodeOfDecodeGivesTheEncodingBack :=
  fun p => ⟨decode_wf p, encode_decode p⟩

/-- Settles O3: each line and each decoding is a closed computation. -/
theorem workedEncodingsDecode : Obligations.WorkedEncodingsDecode :=
  ⟨fun _ => ⟨rfl, rfl, rfl, rfl⟩, by decide, by decide, by decide, by decide⟩

/-! ## Reserved encodings (R81) -/

theorem kindSupported_eq_false_iff (S : Byte) : kindSupported S = false ↔
    S.toNat < 0x80 ∨ (0xA0 ≤ S.toNat ∧ S.toNat ≤ 0xAF) ∨ 0xC0 ≤ S.toNat := by
  simp only [kindSupported_eq, statusKind_eq_iff, Bool.or_eq_false_iff, decide_eq_false_iff_not,
    BitVec.toNat_ofNat]
  omega

theorem ctlOpc_eq_iff (w : CtlWord) (opc : Byte) : ctlOpc w = opc ↔ w.toNat / 2 ^ 24 = opc.toNat := by
  rw [← BitVec.toNat_inj, ctlOpc_toNat]

theorem ctlRsv_eq_iff (w : CtlWord) (rsv : Byte) : ctlRsv w = rsv ↔ w.toNat / 2 ^ 16 % 2 ^ 8 = rsv.toNat := by
  rw [← BitVec.toNat_inj, ctlRsv_toNat]

theorem ctlCap_eq_iff (w : CtlWord) (cap : Capacity) : ctlCap w = cap ↔ w.toNat % 2 ^ 16 = cap.toNat := by
  rw [← BitVec.toNat_inj, ctlCap_toNat]

theorem ctlReserved_iff (w : CtlWord) (I : List Byte) : ctlReserved w I = true ↔
    w.toNat / 2 ^ 24 = 0 ∨ 4 ≤ w.toNat / 2 ^ 24 ∨ w.toNat / 2 ^ 16 % 2 ^ 8 ≠ 0 ∨
      (w.toNat / 2 ^ 24 = 1 ∧ (w.toNat % 2 ^ 16 ≠ 0 ∨ I ≠ [])) := by
  have hfields : ctlReserved w I = true ↔ ctlRsv w ≠ 0x00#8 ∨
      ¬ ((ctlOpc w = 0x01#8 ∧ ctlCap w = 0#16 ∧ I = []) ∨ ctlOpc w = 0x02#8 ∨ ctlOpc w = 0x03#8) := by
    simp [ctlReserved_eq, and_assoc, or_assoc, imp_iff_not_or]
  rw [hfields]
  by_cases hI : I = [] <;> simp [hI, ctlOpc_eq_iff, ctlRsv_eq_iff, ctlCap_eq_iff] <;> omega

theorem execUnsupported_of_wired {s : State} (S d1 d2 : Byte) (hw : s.wired = true) :
    execUnsupported S d1 d2 s = .next (s.endEvt .unsupportedEvent none (some (unsupportedRecord S))) := by
  simp only [execUnsupported, readyPrologue_of_wired hw]

theorem execUnsupported_of_unwired {s : State} (S d1 d2 : Byte) (hw : s.wired = false) :
    execUnsupported S d1 d2 s = .next (s.endEvt .notReady none none) := by
  simp only [execUnsupported, readyPrologue_of_unwired hw]

/-- Settles O4: the reserved ranges are the side conditions of the two refusals, which decode to themselves. -/
theorem reservedEncodingsAreRefused : Obligations.ReservedEncodingsAreRefused := by
  refine ⟨fun S d1 d2 s hS => ?_, fun w I s hw => ?_⟩
  · have hdecode : decode (.evt (.cv24 S d1 d2)) = .unsupported S d1 d2 :=
      decodeCv24_of_reserved d1 d2 ((kindSupported_eq_false_iff S).mpr hS)
    rw [hdecode]
    exact ⟨execUnsupported_of_wired S d1 d2, execUnsupported_of_unwired S d1 d2⟩
  · have hdecode : decode (.ctl w I) = .unsupportedCtl w I :=
      decodeCtl_of_reserved ((ctlReserved_iff w I).mpr hw)
    rw [hdecode]
    rfl

end Sys2Proof.Machine

/-! The pseudo-operation `nrpn` (R87): the four Control Changes of a transaction, one step after the other. -/

namespace Sys2Proof.Machine
open Sys2Proof.Claims

/-! ## Runs from a state, operation by operation -/

theorem after_nil {s : State} (h : s.inputs = []) : After s [] s := by
  have hs : { s with inputs := [] } = s := by rw [← h]
  exact (run_zero _).trans (congrArg _ hs)

/-- A run whose first operation goes on continues from the state that operation leaves. -/
theorem after_op_cons {s t u : State} {p : PortOp} {rest : List Input}
    (hexec : exec (decode p) (s.accept rest) = .next t) (hinputs : t.inputs = rest) (h : After t rest u) :
    After s (.op p :: rest) u := by
  have hstep : step { s with inputs := .op p :: rest } = .next t := step_op rfl hexec
  have ht : { t with inputs := rest } = t := by rw [← hinputs]
  rw [After, ht] at h
  exact (run_succ rest.length hstep).trans h

/-! ## What each update adds to the ports -/

@[simp] theorem State.appEvents_accept (s : State) (rest : List Input) :
    (s.accept rest).appEvents = s.appEvents := rfl

@[simp] theorem State.evtStatuses_accept (s : State) (rest : List Input) :
    (s.accept rest).evtStatuses = s.evtStatuses := rfl

@[simp] theorem State.appEvents_endEvt (s : State) (st : Status) (ev : Option AppEvent) (r : Option DiagRecord) :
    (s.endEvt st ev r).appEvents = s.appEvents ++ ev.toList :=
  congrArg Observation.events (State.observe_endEvt s st ev r)

@[simp] theorem State.evtStatuses_endEvt (s : State) (st : Status) (ev : Option AppEvent) (r : Option DiagRecord) :
    (s.endEvt st ev r).evtStatuses = s.evtStatuses ++ [st] :=
  congrArg Observation.statuses (State.observe_endEvt s st ev r)

@[simp] theorem State.appEvents_endNrpn (s : State) (op : EvtOpName) (c : Channel) (S d1 d2 : Byte) (r : NrpnResult) :
    (s.endNrpn op c S d1 d2 r).appEvents = s.appEvents ++ r.event.toList :=
  State.appEvents_endEvt { s with nrpn := s.nrpn.set c r.fields } ..

@[simp] theorem State.evtStatuses_endNrpn (s : State) (op : EvtOpName) (c : Channel) (S d1 d2 : Byte)
    (r : NrpnResult) : (s.endNrpn op c S d1 d2 r).evtStatuses = s.evtStatuses ++ [r.status] :=
  State.evtStatuses_endEvt { s with nrpn := s.nrpn.set c r.fields } ..

/-! ## The halves of a 14-bit value (R87, R135) -/

/-- The MSB half of a 14-bit value, as the 7-bit operand of a Control Change. -/
def msb7 (p : Data14) : Data7 := p.extractLsb' 7 7

/-- The LSB half of a 14-bit value, as the 7-bit operand of a Control Change. -/
def lsb7 (p : Data14) : Data7 := p.extractLsb' 0 7

theorem msb7_toNat (p : Data14) : (msb7 p).toNat = p.toNat / 128 := by
  have := p.isLt
  rw [msb7, BitVec.extractLsb'_toNat, Nat.shiftRight_eq_div_pow]
  omega

theorem lsb7_toNat (p : Data14) : (lsb7 p).toNat = p.toNat % 128 := by
  rw [lsb7, BitVec.extractLsb'_toNat, Nat.shiftRight_zero]

theorem msbHalf_eq (p : Data14) : msbHalf p = (msb7 p).setWidth 8 := by
  apply BitVec.eq_of_toNat_eq
  rw [msbHalf, BitVec.toNat_setWidth, BitVec.toNat_setWidth, msb7_toNat, BitVec.toNat_ushiftRight,
    Nat.shiftRight_eq_div_pow]

theorem lsbHalf_eq (p : Data14) : lsbHalf p = (lsb7 p).setWidth 8 := by
  apply BitVec.eq_of_toNat_eq
  rw [lsbHalf, BitVec.toNat_setWidth, BitVec.toNat_setWidth, lsb7_toNat, BitVec.toNat_and]
  exact congrArg (· % 2 ^ 8) (Nat.and_two_pow_sub_one_eq_mod p.toNat 7)

theorem msb7_append_lsb7 (p : Data14) : msb7 p ++ lsb7 p = p := by
  apply BitVec.eq_of_toNat_eq
  rw [toNat_append_eq, msb7_toNat, lsb7_toNat]
  omega

/-! ## A transaction -/

/-- A wired NRPN operation on 7-bit data bytes is past the prologue. -/
theorem nrpnCv24_of_wired {s : State} {ctl val : Byte} (hw : s.wired = true) (hctl : highByte ctl = false)
    (hval : highByte val = false) (op : EvtOpName) (c : Channel) (write : NrpnFields → NrpnResult) :
    nrpnCv24 op c ctl val write s =
      .next (s.endNrpn op c (statusByte 0xB#4 c) ctl val (write (s.nrpn.get c))) := by
  obtain ⟨hunwired, _⟩ | ⟨_, hhigh, _⟩ | ⟨_, _, h⟩ := nrpnCv24_cases op c ctl val write s
  · simp [hw] at hunwired
  · simp [hctl, hval] at hhigh
  · exact h

section
variable (c : Channel) (val : Byte)

theorem exec_decode_cc99 : exec (decode (.evt (.cv24 (statusByte 0xB#4 c) 99#8 val))) =
    nrpnCv24 .ccNrpnIdMsb c 99#8 val fun f => writeIdMsb f (data7 val) :=
  congrArg exec (decode_encode (i := .ccNrpnIdMsb c val) rfl)

theorem exec_decode_cc98 : exec (decode (.evt (.cv24 (statusByte 0xB#4 c) 98#8 val))) =
    nrpnCv24 .ccNrpnIdLsb c 98#8 val fun f => writeIdLsb f (data7 val) :=
  congrArg exec (decode_encode (i := .ccNrpnIdLsb c val) rfl)

theorem exec_decode_cc6 : exec (decode (.evt (.cv24 (statusByte 0xB#4 c) 6#8 val))) =
    nrpnCv24 .ccDataEntryMsb c 6#8 val fun f => writeValueMsb f c (data7 val) :=
  congrArg exec (decode_encode (i := .ccDataEntryMsb c val) rfl)

theorem exec_decode_cc38 : exec (decode (.evt (.cv24 (statusByte 0xB#4 c) 38#8 val))) =
    nrpnCv24 .ccDataEntryLsb c 38#8 val fun f => writeValueLsb f c (data7 val) :=
  congrArg exec (decode_encode (i := .ccDataEntryLsb c val) rfl)

end

/-- With a complete identifier and no value in flight, the value MSB is stored and waits (R142). -/
theorem writeValueMsb_of_no_value (a b x : Data7) (c : Channel) : writeValueMsb ⟨some a, some b, none, none⟩ c x =
    ⟨⟨some a, some b, some x, none⟩, .nrpnPending, none⟩ := by
  simp [writeValueMsb, tryComplete]

/-- With the value MSB in flight, the value LSB completes the transaction (R137, R143). -/
theorem writeValueLsb_of_value_msb (a b x y : Data7) (c : Channel) :
    writeValueLsb ⟨some a, some b, some x, none⟩ c y =
      ⟨⟨some a, some b, none, none⟩, .ok, some (.nrpnParameterChange c (a ++ b) (x ++ y))⟩ := by
  simp [writeValueLsb, tryComplete, merge14_halves]

/-- A run on a wired block that begins with an NRPN Control Change continues from the write it makes. -/
theorem after_nrpn_cons {s u : State} {op : EvtOpName} {c : Channel} {ctl val : Byte}
    {write : NrpnFields → NrpnResult} {rest : List Input} (hw : s.wired = true) (hctl : highByte ctl = false)
    (hval : highByte val = false)
    (hexec : exec (decode (.evt (.cv24 (statusByte 0xB#4 c) ctl val))) = nrpnCv24 op c ctl val write)
    (h : After ((s.accept rest).endNrpn op c (statusByte 0xB#4 c) ctl val (write (s.nrpn.get c))) rest u) :
    After s (ccInput c ctl val :: rest) u :=
  after_op_cons ((congrFun hexec _).trans (nrpnCv24_of_wired (s := s.accept rest) hw hctl hval op c write)) rfl h

/-- Settles O24: the two identifier writes drop whatever was in flight, the first value write is stored, and the second
completes the transaction with both quantities merged from their halves. -/
theorem nrpnPseudoOperationEmitsItsEvent : Obligations.NrpnPseudoOperationEmitsItsEvent := by
  intro s c p v hw
  simp only [assemble, nrpnSelect, nrpnValue, List.cons_append, List.nil_append, msbHalf_eq, lsbHalf_eq]
  refine ⟨_, after_nrpn_cons hw rfl (highByte_setWidth _) (exec_decode_cc99 c _) <|
    after_nrpn_cons hw rfl (highByte_setWidth _) (exec_decode_cc98 c _) <|
    after_nrpn_cons hw rfl (highByte_setWidth _) (exec_decode_cc6 c _) <|
    after_nrpn_cons hw rfl (highByte_setWidth _) (exec_decode_cc38 c _) <| after_nil rfl, ?_, ?_⟩
  · simp [writeIdMsb, writeIdLsb, writeValueMsb_of_no_value, writeValueLsb_of_value_msb, msb7_append_lsb7]
  · simp [writeIdMsb, writeIdLsb, writeValueMsb_of_no_value, writeValueLsb_of_value_msb]

end Sys2Proof.Machine

/-! The codec's round trip (R113), and the pseudo-operation `sysexcmd` (R87), whose frame carries packed data. -/

namespace Sys2Proof.Machine
open Sys2Proof.Claims

/-! ## Unpacking what was packed (R113) -/

/-- A stripped byte and its own bit 7 make the byte again. -/
theorem restoreHigh_stripHigh {hdr : Byte} {k : Nat} {b : Byte} (h : hdr.getLsbD k = highByte b) :
    restoreHigh hdr k (stripHigh b) = b := by
  rw [restoreHigh, h]
  clear h
  revert b
  decide

/-- Restoring a group's stripped bytes under its own header gives the group back. -/
theorem mapIdx_restoreHigh_packGroup {chunk : List Byte} (h : chunk.length ≤ 7) :
    (chunk.map stripHigh).mapIdx (fun j b => restoreHigh (packHeader 0 chunk) (0 + j) b) = chunk := by
  apply List.ext_getElem (by simp)
  intro j _ hj
  have hbit : (packHeader 0 chunk).getLsbD j = highByte chunk[j] := by
    rw [packHeader_getLsbD, Nat.sub_zero, List.getElem?_eq_getElem hj]
    simp [show j < 8 by omega]
  simp [restoreHigh_stripHigh hbit]

/-- Unpacking one packed group, at a group boundary. -/
theorem unpackLoop_packGroup (hdr : Byte) {chunk : List Byte} (rest : List Byte) (h : chunk.length ≤ 7) :
    unpackLoop hdr 7 (packGroup chunk ++ rest) =
      chunk ++ unpackLoop (packHeader 0 chunk) chunk.length rest := by
  rw [packGroup, List.cons_append, unpackLoop_header, unpackLoop_data _ _ _ _ (by simpa using h),
    mapIdx_restoreHigh_packGroup h, List.length_map, Nat.zero_add]

theorem unpackLoop_packGroups (hdr : Byte) {groups : Nat} {l : List Byte} (h : groups = ceilDiv l.length 7) :
    unpackLoop hdr 7 (packGroups groups l) = l := by
  induction groups generalizing hdr l with
  | zero =>
    have hnil : l = [] := List.eq_nil_of_length_eq_zero (by simp only [ceilDiv] at h; omega)
    rw [hnil]; rfl
  | succ g ih =>
    have hrest : g = ceilDiv (l.drop 7).length 7 := by simp only [ceilDiv, List.length_drop] at h ⊢; omega
    rw [packGroups, unpackLoop_packGroup hdr _ (List.length_take_le 7 l)]
    by_cases hfull : 7 ≤ l.length
    · rw [List.length_take_of_le hfull, ih _ hrest, List.take_append_drop]
    · have hdrop : l.drop 7 = [] := List.drop_eq_nil_of_le (by omega)
      have hg : g = 0 := by simpa [hdrop, ceilDiv] using hrest
      rw [hg, packGroups, unpackLoop, List.append_nil, List.take_of_length_le (by omega)]

/-! ## What was packed is 7-bit (R104) -/

theorem any_highByte_packGroup {chunk : List Byte} (h : chunk.length ≤ 7) :
    (packGroup chunk).any highByte = false := by
  have hheader : highByte (packHeader 0 chunk) = false := by
    rw [highByte, BitVec.msb_eq_getLsbD_last, packHeader_getLsbD]
    simp [h]
  simp [packGroup, hheader, highByte_stripHigh]

theorem any_highByte_packGroups (groups : Nat) (l : List Byte) : (packGroups groups l).any highByte = false := by
  induction groups generalizing l with
  | zero => rfl
  | succ g ih =>
    rw [packGroups, List.any_append, any_highByte_packGroup (List.length_take_le 7 l), ih, Bool.or_self]

/-- The decoded length of an encoded length is the length (R102, R103). -/
theorem decLen_encLen (m : Nat) : decLen (encLen m) = m := by
  simp only [decLen, encLen, ceilDiv]; omega

/-- Decode7 of what Encode7 packs is what was packed, at every capacity that holds it (R113). -/
theorem decode7_packGroups {data : List Byte} {cap : Nat} (h : data.length ≤ cap) :
    decode7 (packGroups (ceilDiv data.length 7) data) cap = .ok data := by
  have hlen : decLen (packGroups (ceilDiv data.length 7) data).length = data.length := by
    rw [packGroups_length _ _ rfl, decLen_encLen]
  obtain ⟨hhigh, _⟩ | ⟨_, hcap, _⟩ | ⟨_, _, hok⟩ := decode7_cases (packGroups (ceilDiv data.length 7) data) cap
  · simp [any_highByte_packGroups] at hhigh
  · omega
  · rw [hok, unpackLoop_packGroups _ rfl]

/-! ## A frame of this block (R185, R186) -/

theorem length_mfrBytes (cfg : Cfg) : (mfrBytes cfg).length = cfg.prefixLen := by
  rw [mfrBytes, List.length_map, prefixLen_eq_length_mfrId]

theorem any_highByte_mfrBytes (cfg : Cfg) : (mfrBytes cfg).any highByte = false := by
  simp [mfrBytes]

section
variable (cfg : Cfg) (cmd : Byte) (rest : List Byte)

theorem slice_mfrBytes : slice (mfrBytes cfg ++ cmd :: rest) 0 cfg.prefixLen = mfrBytes cfg := by
  simp [slice, ← length_mfrBytes]

theorem slice_payload :
    slice (mfrBytes cfg ++ cmd :: rest) (cfg.prefixLen + 1) (mfrBytes cfg ++ cmd :: rest).length = rest := by
  have hdrop : (mfrBytes cfg ++ cmd :: rest).drop (cfg.prefixLen + 1) = rest := by simp [← length_mfrBytes]
  rw [slice, hdrop, List.take_of_length_le (by simp [← length_mfrBytes]; omega)]

theorem frameRead_cmd : frameRead (mfrBytes cfg ++ cmd :: rest) cfg.prefixLen = some cmd := by
  simp [frameRead, ← length_mfrBytes]

end

/-- A wired SYSEX whose frame passes the checks before the command byte is dispatched on it. -/
theorem execSysex_of_frame {s : State} {F : List Byte} {cmd : Byte} {rest : List Byte} (hw : s.wired = true)
    (hF : F = mfrBytes s.cfg ++ cmd :: rest) (hlen : F.length ≤ s.cfg.maxSysexLen) (hlow : F.any highByte = false) :
    execSysex F s = .next (sysexCommand F (data7 cmd) s) := by
  have hshort : ¬ F.length < s.cfg.prefixLen + 1 := by simp [hF, length_mfrBytes]
  have hprefix : slice F 0 s.cfg.prefixLen = mfrBytes s.cfg := hF ▸ slice_mfrBytes s.cfg cmd rest
  have hread : frameRead F s.cfg.prefixLen = some cmd := hF ▸ frameRead_cmd s.cfg cmd rest
  simp [execSysex, readyPrologue_of_wired hw, hlen, hlow, hshort, hprefix, hread]

/-- A command of the block whose payload decodes within the capacity is emitted with what was decoded (R185). -/
theorem sysexCommand_of_decode7 {s : State} {F : List Byte} {cmd : Byte} {v : Data7} {rest payload : List Byte}
    (hF : F = mfrBytes s.cfg ++ cmd :: rest) (hcmd : s.cfg.hasCmd v = true)
    (hdecode : decode7 rest s.cfg.decodeCapacity = .ok payload) :
    sysexCommand F v s = s.endSysex F.length (some v) .ok (some (.sysExCommand v payload)) := by
  have hslice : slice F (s.cfg.prefixLen + 1) F.length = rest := hF ▸ slice_payload s.cfg cmd rest
  simp [sysexCommand, hcmd, hslice, hdecode]

/-! ## The pseudo-operation -/

section
variable (cfg : Cfg) (cmd : Data7) (data : List Byte)

theorem sysexCmdFrame_eq : sysexCmdFrame cfg cmd data =
    mfrBytes cfg ++ cmd.setWidth 8 :: packGroups (ceilDiv data.length 7) data := rfl

theorem length_sysexCmdFrame : (sysexCmdFrame cfg cmd data).length = cfg.prefixLen + 1 + encLen data.length := by
  rw [sysexCmdFrame_eq, List.length_append, List.length_cons, length_mfrBytes, packGroups_length _ _ rfl]
  omega

theorem any_highByte_sysexCmdFrame : (sysexCmdFrame cfg cmd data).any highByte = false := by
  rw [sysexCmdFrame_eq, List.any_append, List.any_cons, any_highByte_mfrBytes, highByte_setWidth,
    any_highByte_packGroups]
  rfl

end

/-- Settles O40: the frame passes every check before its command byte, and its payload unpacks to the data. -/
theorem sysexCommandArrivesWithItsData : Obligations.SysexCommandArrivesWithItsData := by
  intro s cmd data hw hcmd hcap hlen
  have hexec := execSysex_of_frame (s := s.accept []) hw (sysexCmdFrame_eq s.cfg cmd data)
    ((length_sysexCmdFrame ..).trans_le hlen) (any_highByte_sysexCmdFrame ..)
  have hcommand := sysexCommand_of_decode7 (s := s.accept []) (sysexCmdFrame_eq s.cfg cmd data) hcmd
    (decode7_packGroups hcap)
  rw [data7_setWidth, hcommand, State.endSysex_eq] at hexec
  exact ⟨_, after_op_cons hexec (State.endEvt_inputs ..) (after_nil (State.endEvt_inputs ..)), by simp, by simp,
    by simp⟩

end Sys2Proof.Machine

/-! The codec by position (R101 to R105): what is packed and what is unpacked satisfy `Packs` and `Unpacks`, and on
7-bit sequences the two relations are inverse exactly at the canonical ones (R114). -/

namespace Sys2Proof.Machine
open Sys2Proof.Claims

/-! ## 7-bit sequences and the two operations' encodings -/

theorem allSevenBit_iff (l : List Byte) : AllSevenBit l ↔ l.any highByte = false := by
  simp [AllSevenBit, highByte_eq_false_iff]

theorem not_allSevenBit_iff (l : List Byte) : ¬ AllSevenBit l ↔ ∃ b ∈ l, 128 ≤ b.toNat := by
  simp [AllSevenBit]

theorem eq_ctlWord_of_toNat {w : CtlWord} {opc : Byte} {cap : Capacity}
    (h : w.toNat = opc.toNat * 2 ^ 24 + cap.toNat) : w = ctlWord opc 0x00#8 cap := by
  apply BitVec.eq_of_toNat_eq
  rw [h, ctlWord_toNat]
  simp

/-! ## Unpacking, by position (R101, R105) -/

theorem restoreHigh_toNat (hdr : Byte) (k : Nat) {d : Byte} (hd : d.toNat < 128) :
    (restoreHigh hdr k d).toNat = d.toNat % 128 + 128 * (hdr.getLsbD k).toNat := by
  rw [restoreHigh]
  generalize hdr.getLsbD k = bit
  revert d bit
  decide

/-- The loop restores one group under its header, then goes on at a group boundary. -/
theorem unpackLoop_cons (hdr h : Byte) (rest : List Byte) :
    unpackLoop hdr 7 (h :: rest) = (rest.take 7).mapIdx (restoreHigh h) ++ unpackLoop h 7 (rest.drop 7) := by
  have hgroup := unpackLoop_data h 0 (rest.take 7) (rest.drop 7) (by simp)
  rw [List.take_append_drop] at hgroup
  rw [unpackLoop_header, hgroup]
  by_cases hfull : 7 ≤ rest.length
  · simp [hfull]
  · simp [List.drop_eq_nil_of_le (show rest.length ≤ 7 by omega), unpackLoop]

theorem drop_seven_unpackLoop (hdr : Byte) (l : List Byte) :
    (unpackLoop hdr 7 l).drop 7 = unpackLoop hdr 7 (l.drop 8) := by
  cases l with
  | nil => simp [unpackLoop]
  | cons h rest =>
    rw [unpackLoop_cons, List.drop_succ_cons, unpackLoop_full hdr h]
    by_cases hfull : 7 ≤ rest.length
    · exact List.drop_left' (by simpa using hfull)
    · simp [List.drop_eq_nil_of_le (show rest.length ≤ 7 by omega), unpackLoop]

/-- Every whole group of 8 input bytes gives 7 output bytes. -/
theorem drop_unpackLoop (hdr : Byte) (g : Nat) (l : List Byte) :
    (unpackLoop hdr 7 l).drop (7 * g) = unpackLoop hdr 7 (l.drop (8 * g)) := by
  induction g generalizing l with
  | zero => rfl
  | succ g ih =>
    rw [Nat.mul_succ, Nat.mul_succ, Nat.add_comm, ← List.drop_drop, drop_seven_unpackLoop, ih, List.drop_drop,
      Nat.add_comm]

/-- Output byte `k` of group `g` is data byte `k` of that group, restored under its header. -/
theorem getElem?_unpackLoop (hdr₀ : Byte) {l : List Byte} {g k : Nat} {hdr d : Byte} (hk : k < 7)
    (hhdr : l[8 * g]? = some hdr) (hd : l[8 * g + 1 + k]? = some d) :
    (unpackLoop hdr₀ 7 l)[7 * g + k]? = some (restoreHigh hdr k d) := by
  obtain ⟨hlt, rfl⟩ := List.getElem?_eq_some_iff.mp hhdr
  have hgroup : (l.drop (8 * g + 1))[k]? = some d := by rw [List.getElem?_drop, hd]
  have htake : k < ((l.drop (8 * g + 1)).take 7).length := by
    have := (List.getElem?_eq_some_iff.mp hgroup).1
    rw [List.length_take]; omega
  rw [← List.getElem?_drop, drop_unpackLoop, List.drop_eq_getElem_cons hlt, unpackLoop_cons,
    List.getElem?_append_left (by simpa using htake), List.getElem?_mapIdx, List.getElem?_take_of_lt hk, hgroup]
  rfl

theorem unpacks_unpackLoop (hdr₀ : Byte) {l : List Byte} (hl : AllSevenBit l) :
    Unpacks l (unpackLoop hdr₀ 7 l) := by
  have hlen : (unpackLoop hdr₀ 7 l).length = l.length - (l.length + 7) / 8 :=
    unpackLoop_length hdr₀ 7 l (Nat.le_refl 7)
  refine ⟨hlen, fun i hi => ?_⟩
  have hhdr := List.getElem?_eq_getElem (show 8 * (i / 7) < l.length by omega)
  have hdata := List.getElem?_eq_getElem (show 8 * (i / 7) + 1 + i % 7 < l.length by omega)
  have hout := getElem?_unpackLoop hdr₀ (Nat.mod_lt i (by decide)) hhdr hdata
  rw [Nat.div_add_mod] at hout
  rw [show i + i / 7 + 1 = 8 * (i / 7) + 1 + i % 7 by omega]
  exact ⟨_, _, _, hhdr, hdata, hout, restoreHigh_toNat _ _ (hl _ (List.mem_of_getElem? hdata))⟩

/-- `Unpacks` read by group and place in the group. -/
theorem unpacks_at {y x : List Byte} (h : Unpacks y x) {g k : Nat} (hk : k < 7) (hlt : 7 * g + k < x.length) :
    ∃ hdr d b : Byte, y[8 * g]? = some hdr ∧ y[8 * g + 1 + k]? = some d ∧ x[7 * g + k]? = some b ∧
      b.toNat = d.toNat % 128 + 128 * (hdr.getLsbD k).toNat := by
  have hat := h.2 (7 * g + k) hlt
  have hdiv : (7 * g + k) / 7 = g := by omega
  have hmod : (7 * g + k) % 7 = k := by omega
  rwa [hdiv, hmod, show 7 * g + k + g + 1 = 8 * g + 1 + k by omega] at hat

/-! ## Packing, by position (R101, R104) -/

/-- Every whole group of 7 input bytes gives 8 output bytes. -/
theorem drop_packGroups (g groups : Nat) {l : List Byte} (h : 7 * g ≤ l.length) :
    (packGroups (g + groups) l).drop (8 * g) = packGroups groups (l.drop (7 * g)) := by
  induction g generalizing l with
  | zero => simp
  | succ g ih =>
    have hgroup : (packGroup (l.take 7)).length = 8 := by
      rw [packGroup_length, List.length_take_of_le (by omega)]
    rw [show g + 1 + groups = g + groups + 1 by omega, packGroups, Nat.mul_succ 8, Nat.add_comm (8 * g),
      ← List.drop_drop, List.drop_left' hgroup, ih (by rw [List.length_drop]; omega), List.drop_drop,
      Nat.mul_succ 7, Nat.add_comm 7]

/-- Place `m` of packed group `g`. -/
theorem getElem?_packGroups {l : List Byte} {groups g m : Nat} (hgroups : g < groups) (hm : m < 8)
    (h : 7 * g + m ≤ l.length) :
    (packGroups groups l)[8 * g + m]? = (packGroup ((l.drop (7 * g)).take 7))[m]? := by
  obtain ⟨n, rfl⟩ := Nat.exists_eq_add_of_lt hgroups
  rw [← List.getElem?_drop, Nat.add_assoc, drop_packGroups g (n + 1) (by omega), packGroups,
    List.getElem?_append_left (by rw [packGroup_length, List.length_take, List.length_drop]; omega)]

theorem packs_packGroups (l : List Byte) : Packs l (packGroups (ceilDiv l.length 7) l) := by
  refine ⟨packGroups_length _ l rfl, fun i b hb => ⟨stripHigh b, ?_, stripHigh_toNat b⟩,
    fun g hg => ⟨packHeader 0 ((l.drop (7 * g)).take 7), ?_, fun k hk => ?_⟩⟩
  · have hi := (List.getElem?_eq_some_iff.mp hb).1
    rw [show i + i / 7 + 1 = 8 * (i / 7) + (i % 7 + 1) by omega,
      getElem?_packGroups (by rw [ceilDiv]; omega) (by omega) (by omega), packGroup, List.getElem?_cons_succ,
      List.getElem?_map, List.getElem?_take_of_lt (by omega), List.getElem?_drop, Nat.div_add_mod, hb]
    rfl
  · rw [← Nat.add_zero (8 * g), getElem?_packGroups (by rw [ceilDiv]; omega) (by omega) (by omega), packGroup]
    rfl
  · rw [packHeader_getLsbD, Nat.sub_zero, List.getElem?_take, List.getElem?_drop]
    by_cases h7 : k < 7
    · simp [hk, h7, highByte_iff, Option.any_eq_true]
    · simp [h7]

/-- The packed form is fixed by the input: every header bit and every data byte is. -/
theorem packs_unique {x y z : List Byte} (hy : Packs x y) (hz : Packs x z) : z = y := by
  obtain ⟨hylen, hydata, hyhdr⟩ := hy
  obtain ⟨hzlen, hzdata, hzhdr⟩ := hz
  apply List.ext_getElem?
  intro p
  by_cases hp : p < y.length
  · by_cases hplace : p % 8 = 0
    · obtain ⟨hdry, hyp, hybits⟩ := hyhdr (p / 8) (by omega)
      obtain ⟨hdrz, hzp, hzbits⟩ := hzhdr (p / 8) (by omega)
      have heq : hdrz = hdry := BitVec.eq_of_getLsbD_eq fun k hk =>
        Bool.eq_iff_iff.mpr ((hzbits k hk).trans (hybits k hk).symm)
      rw [show p = 8 * (p / 8) by omega, hyp, hzp, heq]
    · have hi : 7 * (p / 8) + (p % 8 - 1) < x.length := by omega
      obtain ⟨dy, hyp, hdy⟩ := hydata _ _ (List.getElem?_eq_getElem hi)
      obtain ⟨dz, hzp, hdz⟩ := hzdata _ _ (List.getElem?_eq_getElem hi)
      have heq : dz = dy := BitVec.eq_of_toNat_eq (hdz.trans hdy.symm)
      rw [show p = 7 * (p / 8) + (p % 8 - 1) + (7 * (p / 8) + (p % 8 - 1)) / 7 + 1 by omega, hyp, hzp, heq]
  · rw [List.getElem?_eq_none (by omega), List.getElem?_eq_none (by omega)]

/-! ## Canonical packed sequences (R114) -/

/-- A packed sequence has no lone trailing header, and its unused header bits are 0. -/
theorem canonical_of_packs {x y : List Byte} (h : Packs x y) : y.length % 8 ≠ 1 ∧ UnusedHeaderBitsZero y := by
  obtain ⟨hlen, _, hheader⟩ := h
  refine ⟨by omega, fun hpartial hdr hhdr k hunused hk => ?_⟩
  obtain ⟨hdr', hhdr', hbits⟩ := hheader (y.length / 8) (by omega)
  obtain rfl : hdr' = hdr := Option.some_inj.mp (hhdr'.symm.trans hhdr)
  have hnone : x[7 * (y.length / 8) + k]? = none := List.getElem?_eq_none (by omega)
  simpa [hnone] using hbits k (by omega)

/-- In a canonical 7-bit sequence, a header bit says whether its data byte unpacks to a byte of 128 or more. -/
theorem headerBit_iff_of_unpacks {x y : List Byte} (hy : AllSevenBit y) (h : Unpacks y x)
    (hunused : UnusedHeaderBitsZero y) {g k : Nat} {hdr : Byte} (hg : 7 * g < x.length)
    (hhdr : y[8 * g]? = some hdr) (hk : k < 8) :
    hdr.getLsbD k = true ↔ k < 7 ∧ ∃ b, x[7 * g + k]? = some b ∧ 128 ≤ b.toNat := by
  have hlen := h.1
  rcases Nat.lt_or_ge k 7 with h7 | h7
  · rcases Nat.lt_or_ge (7 * g + k) x.length with hin | hout
    · obtain ⟨hdr', d, b, hhdr', _, hb, hval⟩ := unpacks_at h h7 hin
      obtain rfl : hdr' = hdr := Option.some_inj.mp (hhdr'.symm.trans hhdr)
      have hbit : 128 ≤ b.toNat ↔ hdr'.getLsbD k = true := by
        rw [hval]
        cases hdr'.getLsbD k with
        | false => simp; omega
        | true => simp
      simp [h7, hb, hbit]
    · have hlast : g = y.length / 8 := by omega
      have hzero := hunused (by omega) hdr (hlast ▸ hhdr) k (by omega) h7
      simp [hzero, List.getElem?_eq_none hout]
  · have hbit : hdr.getLsbD 7 = false :=
      (highByte_eq_false_iff hdr).mpr (hy hdr (List.mem_of_getElem? hhdr))
    simp only [show k = 7 by omega, hbit, Bool.false_eq_true, Nat.lt_irrefl, false_and]

/-- A canonical 7-bit sequence is the packed form of what it unpacks to. -/
theorem packs_of_unpacks {x y : List Byte} (hy : AllSevenBit y) (h : Unpacks y x) (hlone : y.length % 8 ≠ 1)
    (hunused : UnusedHeaderBitsZero y) : Packs x y := by
  have hlen := h.1
  refine ⟨by omega, fun i b hb => ?_, fun g hg => ?_⟩
  · obtain ⟨hdr, d, b', _, hd, hb', hval⟩ := h.2 i (List.getElem?_eq_some_iff.mp hb).1
    obtain rfl : b' = b := Option.some_inj.mp (hb'.symm.trans hb)
    have hlow := hy d (List.mem_of_getElem? hd)
    exact ⟨d, hd, by omega⟩
  · have hhdr := List.getElem?_eq_getElem (show 8 * g < y.length by omega)
    exact ⟨_, hhdr, fun k hk => headerBit_iff_of_unpacks hy h hunused hg hhdr hk⟩

theorem packs_iff_canonical {x y : List Byte} (hy : AllSevenBit y) (h : Unpacks y x) :
    Packs x y ↔ y.length % 8 ≠ 1 ∧ UnusedHeaderBitsZero y :=
  ⟨canonical_of_packs, fun ⟨hlone, hunused⟩ => packs_of_unpacks hy h hlone hunused⟩

/-! ## The codec functions -/

theorem unpacks_of_decode7_eq_ok {y x : List Byte} {cap : Nat} (h : decode7 y cap = .ok x) :
    AllSevenBit y ∧ Unpacks y x := by
  obtain ⟨_, e⟩ | ⟨_, _, e⟩ | ⟨hlow, _, e⟩ := decode7_cases y cap <;> rw [e] at h
  case inr.inr =>
    cases h
    have hy := (allSevenBit_iff y).mpr hlow
    exact ⟨hy, unpacks_unpackLoop _ hy⟩
  all_goals cases h

theorem decode7_of_high {y : List Byte} (h : ∃ b ∈ y, 128 ≤ b.toNat) (cap : Nat) :
    decode7 y cap = .err .malformedByte := by
  obtain ⟨_, e⟩ | ⟨hlow, _⟩ | ⟨hlow, _⟩ := decode7_cases y cap
  · exact e
  all_goals exact absurd ((allSevenBit_iff y).mpr hlow) ((not_allSevenBit_iff y).mpr h)

theorem decode7_of_over {y : List Byte} {cap : Nat} (hy : AllSevenBit y) (hcap : cap < decLen y.length) :
    decode7 y cap = .err .bufferOverflow := by
  obtain ⟨hhigh, _⟩ | ⟨_, _, e⟩ | ⟨_, hfits, _⟩ := decode7_cases y cap
  · simp [(allSevenBit_iff y).mp hy] at hhigh
  · exact e
  · omega

theorem exists_decode7_eq_ok {y : List Byte} {cap : Nat} (hy : AllSevenBit y) (hcap : decLen y.length ≤ cap) :
    ∃ x, decode7 y cap = .ok x := by
  obtain ⟨hhigh, _⟩ | ⟨_, hover, _⟩ | ⟨_, _, e⟩ := decode7_cases y cap
  · simp [(allSevenBit_iff y).mp hy] at hhigh
  · omega
  · exact ⟨_, e⟩

theorem encode7_of_over {x : List Byte} {cap : Nat} (hcap : cap < encLen x.length) :
    encode7 x cap = .err .bufferOverflow := by
  obtain ⟨_, e⟩ | ⟨hfits, _⟩ := encode7_cases x cap
  · exact e
  · omega

theorem encode7_eq_ok {x : List Byte} {cap : Nat} (hcap : encLen x.length ≤ cap) :
    encode7 x cap = .ok (packGroups (ceilDiv x.length 7) x) := by
  obtain ⟨hover, _⟩ | ⟨_, e⟩ := encode7_cases x cap
  · omega
  · exact e

/-- Settles O35: what Encode7 packs unpacks to the input. -/
theorem codecRoundTrip : Obligations.CodecRoundTrip :=
  fun x _ hcap => ⟨_, encode7_eq_ok (Nat.le_refl (encLen x.length)), decode7_packGroups hcap⟩

/-- Settles O36: re-encoding gives the one packed form of the decoded bytes, which `y` is exactly when canonical. -/
theorem codecConverseHoldsExactlyForCanonicalInput :
    Obligations.CodecConverseHoldsExactlyForCanonicalInput := by
  intro y cap hy hcap
  obtain ⟨x, hdecode⟩ := exists_decode7_eq_ok hy hcap
  obtain ⟨_, hunpacks⟩ := unpacks_of_decode7_eq_ok hdecode
  have hlen : x.length = decLen y.length := hunpacks.1
  refine ⟨x, _, hdecode, encode7_eq_ok (hlen ▸ Nat.le_refl _), Iff.trans ?_ (packs_iff_canonical hy hunpacks)⟩
  exact ⟨fun h => h ▸ packs_packGroups x, fun h => packs_unique h (packs_packGroups x)⟩

/-! ## The two operations (R110, R111) -/

theorem exec_codecDecode_of_decode7 {I : List Byte} {cap : Capacity} {r : CodecResult} (s : State)
    (h : decode7 I cap.toNat = r) : exec (.codecDecode cap I) s = .next (s.respond r) := h ▸ rfl

theorem exec_codecEncode_of_encode7 {I : List Byte} {cap : Capacity} {r : CodecResult} (s : State)
    (h : encode7 I cap.toNat = r) : exec (.codecEncode cap I) s = .next (s.respond r) := h ▸ rfl

/-- Settles O33: each of the three outcomes of Decode7 is presented as the response. -/
theorem codecDecodeUnpacks : Obligations.CodecDecodeUnpacks := by
  intro w cap I hw
  have hdecode : decode (encode (.codecDecode cap I)) = .codecDecode cap I := decode_encode rfl
  rw [encode, ← eq_ctlWord_of_toNat hw] at hdecode
  refine ⟨hdecode, fun s => ⟨fun hhigh => ?_, fun hI hover => ?_, fun hI hfits => ?_⟩⟩
  · exact exec_codecDecode_of_decode7 s (decode7_of_high hhigh _)
  · exact exec_codecDecode_of_decode7 s (decode7_of_over hI hover)
  · obtain ⟨out, hok⟩ := exists_decode7_eq_ok hI hfits
    exact ⟨out, (unpacks_of_decode7_eq_ok hok).2, exec_codecDecode_of_decode7 s hok⟩

/-- Settles O34: each of the two outcomes of Encode7 is presented as the response. -/
theorem codecEncodePacks : Obligations.CodecEncodePacks := by
  intro w cap I hw
  have hdecode : decode (encode (.codecEncode cap I)) = .codecEncode cap I := decode_encode rfl
  rw [encode, ← eq_ctlWord_of_toNat hw] at hdecode
  refine ⟨hdecode, fun s => ⟨fun hover => ?_, fun hfits => ?_⟩⟩
  · exact exec_codecEncode_of_encode7 s (encode7_of_over hover)
  · exact ⟨_, packs_packGroups I, (allSevenBit_iff _).mpr (any_highByte_packGroups _ I),
      exec_codecEncode_of_encode7 s (encode7_eq_ok hfits)⟩

/-! ## Lengths and the empty input (R112, R115) -/

/-- Settles O37: the last group is group `q` of the unpacked input, and its bytes are 7-bit. -/
theorem decodedLengthIsExact : Obligations.DecodedLengthIsExact := by
  intro y cap x hdecode
  obtain ⟨hy, hunpacks⟩ := unpacks_of_decode7_eq_ok hdecode
  have hlen := hunpacks.1
  refine ⟨hlen, fun q j hlast hj => ⟨by omega, fun k hk => ?_⟩⟩
  obtain ⟨hdr, d, b, hhdr, hd, hb, hval⟩ := unpacks_at hunpacks (g := q) (k := k) (by omega) (by omega)
  have hlow := hy d (List.mem_of_getElem? hd)
  exact ⟨hdr, d, b, hhdr, hd, hb, by rwa [Nat.mod_eq_of_lt hlow] at hval⟩

/-- Settles O38: the empty sequence packs to itself, and no capacity is too small for it. -/
theorem emptyInputGivesEmptyOutput : Obligations.EmptyInputGivesEmptyOutput :=
  fun cap => ⟨decode7_packGroups (data := []) (Nat.zero_le cap), encode7_eq_ok (x := []) (Nat.zero_le cap)⟩

end Sys2Proof.Machine

/-! One field set of the NrpnAssembler: the merge (R135), the phases (R131), what a value write does to each form of
set (R142, R143), and the reading that stores early values (R148). -/

namespace Sys2Proof.Machine
open Sys2Proof.Claims

/-! ## What a value write does (R142, R143) -/

section
variable {f : NrpnFields} (c : Channel) (a b v : Data7)

theorem writeValueMsb_ignores (h : f.identifierMsb = none ∨ f.identifierLsb = none) :
    writeValueMsb f c v = ⟨f, .nrpnIgnored, none⟩ := if_pos h

theorem writeValueLsb_ignores (h : f.identifierMsb = none ∨ f.identifierLsb = none) :
    writeValueLsb f c v = ⟨f, .nrpnIgnored, none⟩ := if_pos h

theorem writeValueMsb_stores (vm : Option Data7) : writeValueMsb ⟨some a, some b, vm, none⟩ c v =
    ⟨⟨some a, some b, some v, none⟩, .nrpnPending, none⟩ := by
  simp [writeValueMsb, tryComplete]

theorem writeValueLsb_stores (vl : Option Data7) : writeValueLsb ⟨some a, some b, none, vl⟩ c v =
    ⟨⟨some a, some b, none, some v⟩, .nrpnPending, none⟩ := by
  simp [writeValueLsb, tryComplete]

theorem writeValueMsb_completes (vm : Option Data7) (y : Data7) : writeValueMsb ⟨some a, some b, vm, some y⟩ c v =
    ⟨⟨some a, some b, none, none⟩, .ok, some (nrpnEvent c a b v y)⟩ := by
  simp [writeValueMsb, tryComplete, merge14_halves, nrpnEvent]

theorem writeValueLsb_completes (x : Data7) (vl : Option Data7) : writeValueLsb ⟨some a, some b, some x, vl⟩ c v =
    ⟨⟨some a, some b, none, none⟩, .ok, some (nrpnEvent c a b x v)⟩ := by
  simp [writeValueLsb, tryComplete, merge14_halves, nrpnEvent]

end

/-! ## The merge (R135) -/

/-- Settles O20: halves up to 127 are 7-bit values, whose merge is their concatenation; the guard stops the others. -/
theorem mergeIsExact : Obligations.MergeIsExact := by
  intro msb lsb
  refine ⟨fun hm hl => ?_, fun hhigh => if_neg (by omega)⟩
  have hmerge := merge14_halves (BitVec.ofNat 7 msb) (BitVec.ofNat 7 lsb)
  simp only [BitVec.toNat_ofNat, Nat.mod_eq_of_lt (show msb < 2 ^ 7 by omega),
    Nat.mod_eq_of_lt (show lsb < 2 ^ 7 by omega)] at hmerge
  refine ⟨_, hmerge, ?_, by omega⟩
  rw [toNat_append_eq, BitVec.toNat_ofNat, BitVec.toNat_ofNat]
  omega

/-! ## The phases (R131, R132) -/

section
variable (p q : Option Data7)

theorem setCount_eq_zero_iff : p.isSome.toNat + q.isSome.toNat = 0 ↔ p = none ∧ q = none := by
  cases p <;> cases q <;> simp

theorem setCount_eq_one_iff :
    p.isSome.toNat + q.isSome.toNat = 1 ↔ p ≠ none ∧ q = none ∨ p = none ∧ q ≠ none := by
  cases p <;> cases q <;> simp

theorem setCount_eq_two_iff : p.isSome.toNat + q.isSome.toNat = 2 ↔ p ≠ none ∧ q ≠ none := by
  cases p <;> cases q <;> simp

end

/-- `#id` and `#val` of a phase, the table of R131 read from the phase. -/
def Phase.counts : Phase → Nat × Nat
  | .idle => (0, 0)
  | .identifierPartial => (1, 0)
  | .identifierComplete => (2, 0)
  | .valuePartial => (2, 1)
  | .complete => (2, 2)

theorem NrpnFields.phase_eq_some_iff (f : NrpnFields) (ph : Phase) :
    f.phase = some ph ↔ f.idCount = ph.counts.1 ∧ f.valCount = ph.counts.2 := by
  constructor
  · intro h
    unfold NrpnFields.phase at h
    split at h <;> cases h <;> exact ⟨‹_›, ‹_›⟩
  · rintro ⟨hid, hval⟩
    rw [NrpnFields.phase, hid, hval]
    cases ph <;> rfl

/-- R132: the contents without a phase have a value and fewer than two identifier fields. -/
theorem NrpnFields.phase_eq_none_iff (f : NrpnFields) : f.phase = none ↔
    (f.identifierMsb = none ∨ f.identifierLsb = none) ∧ (f.valueMsb ≠ none ∨ f.valueLsb ≠ none) := by
  obtain ⟨_ | a, _ | b, _ | x, _ | y⟩ := f <;> simp [NrpnFields.phase, NrpnFields.idCount, NrpnFields.valCount]

theorem NrpnFields.phase_eq_complete_iff (f : NrpnFields) : f.phase = some .complete ↔
    f.identifierMsb ≠ none ∧ f.identifierLsb ≠ none ∧ f.valueMsb ≠ none ∧ f.valueLsb ≠ none := by
  rw [f.phase_eq_some_iff, ← and_assoc]
  exact and_congr (setCount_eq_two_iff _ _) (setCount_eq_two_iff _ _)

/-- Completing a set in phase `Complete` emits an event and leaves `IdentifierComplete` (R137). -/
theorem tryComplete_of_phase_complete {f : NrpnFields} (c : Channel) (h : f.phase = some .complete) :
    (tryComplete f c).fields.phase = some .identifierComplete ∧ (tryComplete f c).status = .ok ∧
      (tryComplete f c).event.isSome = true := by
  obtain ⟨a, b, x, y, _, e⟩ | ⟨hmissing, _⟩ := tryComplete_cases f c
  · rw [e]; exact ⟨rfl, rfl, rfl⟩
  · obtain ⟨ha, hb, hx, hy⟩ := f.phase_eq_complete_iff.mp h
    simp [ha, hb, hx, hy] at hmissing

/-- Settles O22: the counts of R131 say which of the two fields of each pair are set. -/
theorem phasesFollowTheTable : Obligations.PhasesFollowTheTable := by
  refine ⟨fun f => ⟨?_, ?_, ?_, ?_, f.phase_eq_complete_iff, f.phase_eq_none_iff⟩,
    fun f c => tryComplete_of_phase_complete c⟩ <;> rw [f.phase_eq_some_iff]
  · rw [← and_assoc]
    exact and_congr (setCount_eq_zero_iff _ _) (setCount_eq_zero_iff _ _)
  · exact and_congr (setCount_eq_one_iff _ _) (setCount_eq_zero_iff _ _)
  · rw [← and_assoc]
    exact and_congr (setCount_eq_two_iff _ _) (setCount_eq_zero_iff _ _)
  · rw [← and_assoc]
    exact and_congr (setCount_eq_two_iff _ _) (setCount_eq_one_iff _ _)

/-! ## Storing early values (R148) -/

/-- The claims' `ignoring` is the write of the controller: the set it leaves and its event. -/
theorem ignoring_of_write {f : NrpnFields} {c : Channel} {ctl v : Data7} {r : NrpnResult}
    (h : onControlChange f c ctl v = (r.answer, r.fields)) : ignoring f c ctl v = (r.fields, r.event) := by
  obtain ⟨fields, st, _ | e⟩ := r <;> simp [ignoring, h, NrpnResult.answer]

section
variable (f : NrpnFields) (c : Channel) (v : Data7)

theorem ignoring_idMsb : ignoring f c 99#7 v = ((writeIdMsb f v).fields, (writeIdMsb f v).event) :=
  ignoring_of_write rfl

theorem ignoring_idLsb : ignoring f c 98#7 v = ((writeIdLsb f v).fields, (writeIdLsb f v).event) :=
  ignoring_of_write rfl

theorem ignoring_valueMsb : ignoring f c 6#7 v = ((writeValueMsb f c v).fields, (writeValueMsb f c v).event) :=
  ignoring_of_write rfl

theorem ignoring_valueLsb : ignoring f c 38#7 v = ((writeValueLsb f c v).fields, (writeValueLsb f c v).event) :=
  ignoring_of_write rfl

theorem storing_valueMsb : storing f c 6#7 v = storing.complete { f with valueMsb := some v } c := rfl

theorem storing_valueLsb : storing f c 38#7 v = storing.complete { f with valueLsb := some v } c := rfl

end

/-- What the block holds where the storing reading holds `f`: no value without a complete identifier. -/
def NrpnFields.dropEarly : NrpnFields → NrpnFields
  | ⟨some a, some b, x, y⟩ => ⟨some a, some b, x, y⟩
  | ⟨a, b, _, _⟩ => ⟨a, b, none, none⟩

theorem NrpnFields.dropEarly_of_incomplete {f : NrpnFields}
    (h : f.identifierMsb = none ∨ f.identifierLsb = none) :
    f.dropEarly = ⟨f.identifierMsb, f.identifierLsb, none, none⟩ := by
  obtain ⟨_ | a, _ | b, x, y⟩ := f
  case some.some => simp at h
  all_goals rfl

@[simp] theorem NrpnFields.dropEarly_no_value (a b : Option Data7) :
    NrpnFields.dropEarly ⟨a, b, none, none⟩ = ⟨a, b, none, none⟩ := by
  cases a <;> cases b <;> rfl

@[simp] theorem NrpnFields.dropEarly_identifierMsb (f : NrpnFields) :
    f.dropEarly.identifierMsb = f.identifierMsb := by
  obtain ⟨_ | a, _ | b, x, y⟩ := f <;> rfl

@[simp] theorem NrpnFields.dropEarly_identifierLsb (f : NrpnFields) :
    f.dropEarly.identifierLsb = f.identifierLsb := by
  obtain ⟨_ | a, _ | b, x, y⟩ := f <;> rfl

/-- While the identifier is incomplete the storing reading completes nothing. -/
theorem storing_complete_of_incomplete {f : NrpnFields} (c : Channel)
    (h : f.identifierMsb = none ∨ f.identifierLsb = none) : storing.complete f c = (f, none) := by
  obtain ⟨_ | a, _ | b, x, y⟩ := f
  case some.some => simp at h
  all_goals rfl

theorem NrpnFields.incomplete_or_complete (f : NrpnFields) :
    (f.identifierMsb = none ∨ f.identifierLsb = none) ∨ ∃ a b x y, f = ⟨some a, some b, x, y⟩ := by
  obtain ⟨_ | a, _ | b, x, y⟩ := f
  case some.some => exact .inr ⟨a, b, x, y, rfl⟩
  all_goals exact .inl (by simp)

section
variable (f : NrpnFields) (c : Channel) (v : Data7)

/-- A value MSB: with an incomplete identifier the block ignores it and the other reading stores what `dropEarly`
drops; with a complete one both do the same. -/
theorem ignoring_dropEarly_valueMsb : ignoring f.dropEarly c 6#7 v =
    ((storing f c 6#7 v).1.dropEarly, (storing f c 6#7 v).2) := by
  rw [ignoring_valueMsb, storing_valueMsb]
  obtain hid | ⟨a, b, x, _ | y, rfl⟩ := f.incomplete_or_complete
  · have hstore := storing_complete_of_incomplete (f := { f with valueMsb := some v }) c hid
    rw [writeValueMsb_ignores c v (by simpa using hid), hstore]
    simp [NrpnFields.dropEarly_of_incomplete, hid]
  · rw [NrpnFields.dropEarly, writeValueMsb_stores]; rfl
  · rw [NrpnFields.dropEarly, writeValueMsb_completes]; rfl

theorem ignoring_dropEarly_valueLsb : ignoring f.dropEarly c 38#7 v =
    ((storing f c 38#7 v).1.dropEarly, (storing f c 38#7 v).2) := by
  rw [ignoring_valueLsb, storing_valueLsb]
  obtain hid | ⟨a, b, _ | x, y, rfl⟩ := f.incomplete_or_complete
  · have hstore := storing_complete_of_incomplete (f := { f with valueLsb := some v }) c hid
    rw [writeValueLsb_ignores c v (by simpa using hid), hstore]
    simp [NrpnFields.dropEarly_of_incomplete, hid]
  · rw [NrpnFields.dropEarly, writeValueLsb_stores]; rfl
  · rw [NrpnFields.dropEarly, writeValueLsb_completes]; rfl

/-- One Control Change keeps the two readings in step: the same event, and the sets stay related by `dropEarly`, since
an identifier write clears both values (R148). -/
theorem ignoring_dropEarly (ctl : Data7) : ignoring f.dropEarly c ctl v =
    ((storing f c ctl v).1.dropEarly, (storing f c ctl v).2) := by
  by_cases h99 : ctl = 99#7
  · subst h99
    simp [ignoring_idMsb, storing, writeIdMsb]
  by_cases h98 : ctl = 98#7
  · subst h98
    simp [ignoring_idLsb, storing, writeIdLsb]
  by_cases h6 : ctl = 6#7
  · subst h6; exact ignoring_dropEarly_valueMsb f c v
  by_cases h38 : ctl = 38#7
  · subst h38; exact ignoring_dropEarly_valueLsb f c v
  simp [ignoring, onControlChange, storing, h99, h98, h6, h38]

end

/-- The bank with `φ` applied to every set. -/
def NrpnBank.map (φ : NrpnFields → NrpnFields) : NrpnBank → NrpnBank
  | .perChannel sets => .perChannel (sets.map φ)
  | .shared f => .shared (φ f)

section
variable (φ : NrpnFields → NrpnFields) (b : NrpnBank) (c : Channel)

theorem NrpnBank.get_map : (b.map φ).get c = φ (b.get c) := by
  cases b <;> simp [NrpnBank.map, NrpnBank.get]

theorem NrpnBank.map_set (f : NrpnFields) : (b.set c f).map φ = (b.map φ).set c (φ f) := by
  cases b <;> simp [NrpnBank.map, NrpnBank.set]

end

theorem NrpnBank.map_dropEarly_idle (perChannel : Bool) :
    (NrpnBank.idle perChannel).map NrpnFields.dropEarly = NrpnBank.idle perChannel := by
  cases perChannel <;> simp [NrpnBank.idle, NrpnBank.map, NrpnFields.idle]

/-- From banks related by `dropEarly`, the two readings emit the same events for every stream. -/
theorem bankEvents_ignoring_map_dropEarly (b : NrpnBank) (stream : List (Channel × Data7 × Data7)) :
    bankEvents ignoring (b.map NrpnFields.dropEarly) stream = bankEvents storing b stream := by
  induction stream generalizing b with
  | nil => rfl
  | cons msg rest ih =>
    obtain ⟨c, ctl, v⟩ := msg
    simp only [bankEvents, NrpnBank.get_map, ignoring_dropEarly, ← NrpnBank.map_set, ih]

/-- Settles O29: the idle banks are related by `dropEarly`, and every Control Change keeps that. -/
theorem ignoringEarlyValuesEmitsTheSameEvents : Obligations.IgnoringEarlyValuesEmitsTheSameEvents := by
  intro perChannel stream
  rw [← bankEvents_ignoring_map_dropEarly, NrpnBank.map_dropEarly_idle]

end Sys2Proof.Machine

/-! Transactions over runs (R136, R139, R145, R149, R150): the Control Changes of a transaction one after the other, and
the traffic between them, which presents no NRPN event and leaves the bank alone (R34). -/

namespace Sys2Proof.Machine
open Sys2Proof.Claims

/-! ## Operations that are not the NrpnAssembler's -/

/-- How an event-port operation answers that is not the NrpnAssembler's: it ends with a status other than
`NRPN_DISCARDED`, presents no NRPN event, and writes nothing. -/
def PlainAnswer (s : State) (answer : Result) : Prop :=
  ∃ st ev r, answer = .next (s.endEvt st ev r) ∧ st ≠ .nrpnDiscarded ∧ ev.toList.filter isNrpnEvent = []

section
variable (s : State)

theorem emitCv24_plainAnswer (op : EvtOpName) (S d1 d2 : Byte) {ev : AppEvent} (hev : isNrpnEvent ev = false) :
    PlainAnswer s (emitCv24 op S d1 d2 ev s) := by
  obtain ⟨_, e⟩ | ⟨_, _, e⟩ | ⟨_, _, e⟩ := emitCv24_cases op S d1 d2 ev s
  · exact ⟨_, _, _, e, nofun, rfl⟩
  · exact ⟨_, _, _, e, nofun, rfl⟩
  · exact ⟨_, _, _, e, nofun, by simp [hev]⟩

theorem execSysex_plainAnswer (F : List Byte) : PlainAnswer s (execSysex F s) := by
  obtain ⟨_, e⟩ | ⟨_, st, hst, e⟩ | ⟨_, _, b, _, ⟨_, e⟩ | ⟨_, e⟩ | ⟨_, payload, _, e⟩⟩ := execSysex_cases F s
  · exact ⟨_, _, _, e, nofun, rfl⟩
  · exact ⟨_, _, _, e, by rintro rfl; simp at hst, rfl⟩
  · exact ⟨_, _, _, e, nofun, rfl⟩
  · exact ⟨_, _, _, e, nofun, rfl⟩
  · exact ⟨_, _, _, e, nofun, rfl⟩

theorem execUnsupported_plainAnswer (S d1 d2 : Byte) : PlainAnswer s (execUnsupported S d1 d2 s) := by
  cases hw : s.wired
  · exact ⟨_, _, _, execUnsupported_of_unwired S d1 d2 hw, nofun, rfl⟩
  · exact ⟨_, _, _, execUnsupported_of_wired S d1 d2 hw, nofun, rfl⟩

theorem exec_plainAnswer {i : Instr} (hport : i.onEvtPort = true) (hnrpn : isNrpnOp i = false) :
    PlainAnswer s (exec i s) := by
  cases i with
  | noteOff c d1 d2 => exact emitCv24_plainAnswer s _ _ _ _ rfl
  | noteOnVel0 c d1 => exact emitCv24_plainAnswer s _ _ _ _ rfl
  | noteOn c d1 d2 => exact emitCv24_plainAnswer s _ _ _ _ rfl
  | ccGeneric c d1 d2 => exact emitCv24_plainAnswer s _ _ _ _ rfl
  | sysex F => exact execSysex_plainAnswer s F
  | unsupported S d1 d2 => exact execUnsupported_plainAnswer s S d1 d2
  | ccNrpnIdMsb | ccNrpnIdLsb | ccDataEntryMsb | ccDataEntryLsb => cases hnrpn
  | begin | codecDecode | codecEncode | unsupportedCtl => cases hport

end

@[simp] theorem State.appEvents_endCtl (s : State) (st : Status) (out : List Byte) :
    (s.endCtl st out).appEvents = s.appEvents :=
  congrArg Observation.events (State.observe_endCtl s st out)

/-- `t` is wired and has the bank and the NRPN events of `s`. -/
def NrpnUndisturbed (s t : State) : Prop :=
  t.wired = true ∧ t.nrpn = s.nrpn ∧ t.appEvents.filter isNrpnEvent = s.appEvents.filter isNrpnEvent

/-- An operation that is not the NrpnAssembler's, on any port, disturbs no transaction of a wired block. -/
theorem exec_nrpnUndisturbed {i : Instr} (hnrpn : isNrpnOp i = false) {s : State} (hw : s.wired = true) :
    ∃ t, exec i s = .next t ∧ t.inputs = s.inputs ∧ NrpnUndisturbed s t := by
  cases hport : i.onEvtPort
  · obtain ⟨st, out, h⟩ := exec_ctl hport
    exact ⟨_, h s, rfl, by simp [hw], rfl,
      congrArg (List.filter isNrpnEvent) (State.appEvents_endCtl ..)⟩
  · obtain ⟨st, ev, r, h, _, hev⟩ := exec_plainAnswer s hport hnrpn
    exact ⟨_, h, State.endEvt_inputs .., by simp [hw], by simp, by simp [hev]⟩

/-- Traffic before `rest` disturbs no transaction: whatever its length, `rest` is performed after it. -/
theorem exists_after_append_of_leavesNrpnAlone {m : List Input} (hm : m.all leavesNrpnAlone = true)
    (rest : List Input) {s : State} (hw : s.wired = true) :
    ∃ t, NrpnUndisturbed s t ∧ ∀ u, After t rest u → After s (m ++ rest) u := by
  induction m generalizing s with
  | nil => exact ⟨s, ⟨hw, rfl, rfl⟩, fun _ h => h⟩
  | cons input m ih =>
    obtain ⟨hhead, htail⟩ := Bool.and_eq_true_iff.mp hm
    cases input with
    | reset => cases hhead
    | op p =>
      obtain ⟨t, hexec, hinputs, hwt, hbank, hevents⟩ :=
        exec_nrpnUndisturbed (by simpa [leavesNrpnAlone] using hhead) (s := s.accept (m ++ rest)) hw
      obtain ⟨u, ⟨hwu, hbank', hevents'⟩, hrun⟩ := ih htail hwt
      exact ⟨u, ⟨hwu, hbank'.trans hbank, hevents'.trans hevents⟩,
        fun v hv => after_op_cons hexec hinputs (hrun v hv)⟩

/-! ## Transactions -/

/-- The claims' Control Change is the notation's (R71, R86). -/
theorem cc_eq_ccInput (c : Channel) (ctl : Byte) (v : Data7) : cc c ctl v = ccInput c ctl (v.setWidth 8) := by
  rw [cc, or_channel_eq_statusByte, ccInput]

/-- A transaction goes on after one of its Control Changes and any traffic behind it: the channel's set is what the
write left, and its event is the only NRPN event. -/
theorem exists_after_nrpn_traffic {s : State} {op : EvtOpName} {c : Channel} {ctl val : Byte}
    {write : NrpnFields → NrpnResult} {m rest : List Input} {goal : State → Prop}
    (hm : m.all leavesNrpnAlone = true) (hw : s.wired = true) (hctl : highByte ctl = false)
    (hval : highByte val = false)
    (hexec : exec (decode (.evt (.cv24 (statusByte 0xB#4 c) ctl val))) = nrpnCv24 op c ctl val write)
    (h : ∀ t : State, t.wired = true → t.nrpn.get c = (write (s.nrpn.get c)).fields →
      t.appEvents.filter isNrpnEvent =
        s.appEvents.filter isNrpnEvent ++ (write (s.nrpn.get c)).event.toList.filter isNrpnEvent →
      ∃ u, After t rest u ∧ goal u) :
    ∃ u, After s (ccInput c ctl val :: (m ++ rest)) u ∧ goal u := by
  obtain ⟨t, ⟨hwt, hbank, hevents⟩, hrun⟩ := exists_after_append_of_leavesNrpnAlone hm rest
    (s := (s.accept (m ++ rest)).endNrpn op c (statusByte 0xB#4 c) ctl val (write (s.nrpn.get c))) hw
  obtain ⟨u, hu, hgoal⟩ := h t hwt (by simp [hbank]) (by simp [hevents])
  exact ⟨u, after_nrpn_cons hw hctl hval hexec (hrun u hu), hgoal⟩

/-- Settles O25: the traffic keeps the set that the Control Change before it left, so the four writes meet. -/
theorem transactionSurvivesOtherTraffic : Obligations.TransactionSurvivesOtherTraffic := by
  intro s c a b x y m₁ m₂ m₃ hw hm₁ hm₂ hm₃
  simp only [List.append_assoc, List.singleton_append, cc_eq_ccInput]
  refine exists_after_nrpn_traffic hm₁ hw rfl (highByte_setWidth _) (exec_decode_cc99 c _) fun t₁ hw₁ hset₁ hev₁ => ?_
  refine exists_after_nrpn_traffic hm₂ hw₁ rfl (highByte_setWidth _) (exec_decode_cc98 c _) fun t₂ hw₂ hset₂ hev₂ => ?_
  refine exists_after_nrpn_traffic hm₃ hw₂ rfl (highByte_setWidth _) (exec_decode_cc6 c _) fun t₃ hw₃ hset₃ hev₃ => ?_
  refine ⟨_, after_nrpn_cons hw₃ rfl (highByte_setWidth _) (exec_decode_cc38 c _) (after_nil rfl), ?_⟩
  have hset : t₃.nrpn.get c = ⟨some a, some b, some x, none⟩ := by
    simp [hset₃, hset₂, hset₁, writeIdMsb, writeIdLsb, writeValueMsb_stores]
  have hevents : t₃.appEvents.filter isNrpnEvent = s.appEvents.filter isNrpnEvent := by
    simp [hev₃, hev₂, hev₁, hset₂, hset₁, writeIdMsb, writeIdLsb, writeValueMsb_stores]
  simp [hset, hevents, writeValueLsb_completes, isNrpnEvent, nrpnEvent]

/-- Settles O26: the value MSB waits, and the value LSB completes with the identifier that stands. -/
theorem freshValuePairReusesTheIdentifier : Obligations.FreshValuePairReusesTheIdentifier := by
  intro s c a b x y hw hid
  simp only [cc_eq_ccInput]
  refine ⟨_, after_nrpn_cons hw rfl (highByte_setWidth _) (exec_decode_cc6 c _) <|
    after_nrpn_cons hw rfl (highByte_setWidth _) (exec_decode_cc38 c _) <| after_nil rfl, ?_, ?_⟩ <;>
  simp [hid, writeValueMsb_stores, writeValueLsb_completes]

/-- Settles O27: the second identifier MSB drops the value MSB, so that the value LSB after it waits. -/
theorem freshIdentifierDropsTheTransaction : Obligations.FreshIdentifierDropsTheTransaction := by
  intro s c a b x a' y hw
  simp only [cc_eq_ccInput]
  refine ⟨_, after_nrpn_cons hw rfl (highByte_setWidth _) (exec_decode_cc99 c _) <|
    after_nrpn_cons hw rfl (highByte_setWidth _) (exec_decode_cc98 c _) <|
    after_nrpn_cons hw rfl (highByte_setWidth _) (exec_decode_cc6 c _) <|
    after_nrpn_cons hw rfl (highByte_setWidth _) (exec_decode_cc99 c _) <|
    after_nrpn_cons hw rfl (highByte_setWidth _) (exec_decode_cc38 c _) <| after_nil rfl, ?_,
    (and_iff_left_of_imp fun hset => by rw [hset]; rfl).mpr ?_⟩ <;>
  simp [writeIdMsb, writeIdLsb, writeValueMsb_stores, writeValueLsb_stores]

/-! ## Channels (R145) -/

@[simp] theorem NrpnBank.set_shared (f g : NrpnFields) (c : Channel) :
    (NrpnBank.shared f).set c g = .shared g := rfl

/-- Settles O28: a shared set takes all four writes; with a set per channel the value writes find an idle one. -/
theorem globalStateInterleavesChannels : Obligations.GlobalStateInterleavesChannels := by
  intro s c₁ c₂ c₃ c₄ a b x y hw hfits
  simp only [cc_eq_ccInput, ← State.isPerChannel_of_bankFits hfits]
  refine ⟨fun hshared => ?_, fun hper hdistinct hidle => ?_⟩ <;>
  refine ⟨_, after_nrpn_cons hw rfl (highByte_setWidth _) (exec_decode_cc99 c₁ _) <|
    after_nrpn_cons hw rfl (highByte_setWidth _) (exec_decode_cc98 c₂ _) <|
    after_nrpn_cons hw rfl (highByte_setWidth _) (exec_decode_cc6 c₃ _) <|
    after_nrpn_cons hw rfl (highByte_setWidth _) (exec_decode_cc38 c₄ _) <| after_nil rfl, ?_⟩
  · obtain ⟨f, hbank⟩ : ∃ f, s.nrpn = .shared f := by
      cases hnrpn : s.nrpn with
      | shared f => exact ⟨f, rfl⟩
      | perChannel sets => simp [hnrpn, NrpnBank.isPerChannel] at hshared
    simp [hbank, writeIdMsb, writeIdLsb, writeValueMsb_stores, writeValueLsb_completes]
  · have hignoredMsb := fun v => writeValueMsb_ignores (f := NrpnFields.idle) c₃ v (.inl rfl)
    have hignoredLsb := fun v => writeValueLsb_ignores (f := NrpnFields.idle) c₄ v (.inl rfl)
    obtain ⟨⟨_, h13, h14⟩, ⟨h23, h24⟩, h34⟩ :
        (c₁ ≠ c₂ ∧ c₁ ≠ c₃ ∧ c₁ ≠ c₄) ∧ (c₂ ≠ c₃ ∧ c₂ ≠ c₄) ∧ c₃ ≠ c₄ := by simpa using hdistinct
    simp [NrpnBank.get_set_of_ne, hper, hidle, hignoredMsb, hignoredLsb, writeIdMsb, writeIdLsb, h13.symm, h14.symm,
      h23.symm, h24.symm, h34.symm]

end Sys2Proof.Machine

/-! The four NRPN operations, whole (R140 to R143, R171), the transition table (R147), and `NRPN_DISCARDED`, which no
operation presents (R146). -/

namespace Sys2Proof.Machine
open Sys2Proof.Claims

/-! ## An NRPN operation, whole -/

/-- The status byte of a Control Change is its kind and its channel (R71, R72). -/
theorem statusByte_chan {S : Byte} (hlo : 0xB0 ≤ S.toNat) (hhi : S.toNat ≤ 0xBF) : statusByte 0xB#4 (chan S) = S := by
  have hkind : statusKind S = 0xB#4 := (statusKind_eq_iff S _).mpr (by rw [BitVec.toNat_ofNat]; omega)
  rw [chan, ← statusChannel_eq_ofNat, statusByte_of_statusKind hkind]

theorem decode_of_encode_eq {i : Instr} {p : PortOp} (hwf : i.wf = true) (h : encode i = p) : decode p = i :=
  h ▸ decode_encode hwf

section
variable {i : Instr} {op : EvtOpName} {S d1 d2 : Byte} {write : NrpnFields → NrpnResult}

theorem cvPrologue_of_nrpnCv24 (hS : statusByte 0xB#4 (chan S) = S)
    (hexec : exec i = nrpnCv24 op (chan S) d1 d2 write) : CvPrologue i op S d1 d2 := by
  intro s
  rw [hexec]
  obtain ⟨hw, e⟩ | ⟨hw, _, e⟩ | ⟨hw, hlow, e⟩ := nrpnCv24_cases op (chan S) d1 d2 write s
  · exact ⟨fun _ => e, fun hw' => by simp [hw] at hw'⟩
  · exact ⟨fun hw' => by simp [hw] at hw', fun _ _ => by rw [e, hS]; rfl⟩
  · refine ⟨fun hw' => by simp [hw] at hw', fun _ hhigh => ?_⟩
    simp only [Bool.or_eq_false_iff, highByte_eq_false_iff] at hlow
    omega

/-- Past the prologue an NRPN operation writes the set of its channel and presents what the write answers. -/
theorem exec_eq_presented (hS : statusByte 0xB#4 (chan S) = S) (hexec : exec i = nrpnCv24 op (chan S) d1 d2 write)
    {s : State} (hw : s.wired = true) (h1 : d1.toNat < 128) (h2 : d2.toNat < 128) {r : NrpnResult}
    (hr : write (s.nrpn.get (chan S)) = r) :
    exec i s = .next (presented { s with nrpn := s.nrpn.set (chan S) r.fields } r.status r.event
      (cvRec op S d1 d2 r.status)) := by
  rw [hexec, nrpnCv24_of_wired hw ((highByte_eq_false_iff d1).mpr h1) ((highByte_eq_false_iff d2).mpr h2), hr, hS]
  rfl

/-- An NRPN operation whose write leaves the set as it was leaves the bank as it was. -/
theorem exec_eq_presented_of_unchanged (hS : statusByte 0xB#4 (chan S) = S)
    (hexec : exec i = nrpnCv24 op (chan S) d1 d2 write) {s : State} (hw : s.wired = true) (h1 : d1.toNat < 128)
    (h2 : d2.toNat < 128) {st : Status} (hr : write (s.nrpn.get (chan S)) = ⟨s.nrpn.get (chan S), st, none⟩) :
    exec i s = .next (presented s st none (cvRec op S d1 d2 st)) := by
  rw [exec_eq_presented hS hexec hw h1 h2 hr, NrpnBank.set_get_self]

end

/-- Settles O14: past the prologue the operation is `writeIdMsb`. -/
theorem identifierMsbIsStored : Obligations.IdentifierMsbIsStored := by
  intro S d2 hlo hhi
  have hS := statusByte_chan hlo hhi
  have hexec : exec (.ccNrpnIdMsb (chan S) d2) =
    nrpnCv24 .ccNrpnIdMsb (chan S) 99#8 d2 fun f => writeIdMsb f (val7 d2) := rfl
  exact ⟨decode_of_encode_eq rfl (by rw [encode, hS]), cvPrologue_of_nrpnCv24 hS hexec,
    fun s hw h1 h2 => exec_eq_presented hS hexec hw h1 h2 rfl⟩

/-- Settles O15: past the prologue the operation is `writeIdLsb`. -/
theorem identifierLsbIsStored : Obligations.IdentifierLsbIsStored := by
  intro S d2 hlo hhi
  have hS := statusByte_chan hlo hhi
  have hexec : exec (.ccNrpnIdLsb (chan S) d2) =
    nrpnCv24 .ccNrpnIdLsb (chan S) 98#8 d2 fun f => writeIdLsb f (val7 d2) := rfl
  exact ⟨decode_of_encode_eq rfl (by rw [encode, hS]), cvPrologue_of_nrpnCv24 hS hexec,
    fun s hw h1 h2 => exec_eq_presented hS hexec hw h1 h2 rfl⟩

/-- Settles O16: past the prologue the operation is `writeValueMsb`, on each of the three forms of set. -/
theorem dataEntryMsbStoresOrCompletes : Obligations.DataEntryMsbStoresOrCompletes := by
  intro S d2 hlo hhi
  have hS := statusByte_chan hlo hhi
  have hexec : exec (.ccDataEntryMsb (chan S) d2) =
    nrpnCv24 .ccDataEntryMsb (chan S) 6#8 d2 fun f => writeValueMsb f (chan S) (val7 d2) := rfl
  refine ⟨decode_of_encode_eq rfl (by rw [encode, hS]), cvPrologue_of_nrpnCv24 hS hexec,
    fun s hw h2 => ⟨fun hid => ?_, fun a b vm hf => ?_, fun a b vm y hf => ?_⟩⟩
  · exact exec_eq_presented_of_unchanged hS hexec hw (by decide) h2 (writeValueMsb_ignores _ _ hid)
  · exact exec_eq_presented hS hexec hw (by decide) h2 (hf ▸ writeValueMsb_stores _ a b _ vm)
  · exact exec_eq_presented hS hexec hw (by decide) h2 (hf ▸ writeValueMsb_completes _ a b _ vm y)

/-- Settles O17: past the prologue the operation is `writeValueLsb`, on each of the three forms of set. -/
theorem dataEntryLsbStoresOrCompletes : Obligations.DataEntryLsbStoresOrCompletes := by
  intro S d2 hlo hhi
  have hS := statusByte_chan hlo hhi
  have hexec : exec (.ccDataEntryLsb (chan S) d2) =
    nrpnCv24 .ccDataEntryLsb (chan S) 38#8 d2 fun f => writeValueLsb f (chan S) (val7 d2) := rfl
  refine ⟨decode_of_encode_eq rfl (by rw [encode, hS]), cvPrologue_of_nrpnCv24 hS hexec,
    fun s hw h2 => ⟨fun hid => ?_, fun a b vl hf => ?_, fun a b x vl hf => ?_⟩⟩
  · exact exec_eq_presented_of_unchanged hS hexec hw (by decide) h2 (writeValueLsb_ignores _ _ hid)
  · exact exec_eq_presented hS hexec hw (by decide) h2 (hf ▸ writeValueLsb_stores _ a b _ vl)
  · exact exec_eq_presented hS hexec hw (by decide) h2 (hf ▸ writeValueLsb_completes _ a b _ x vl)

/-! ## The transition table (R147) -/

/-- Every Control Change runs the prologue of one of the two shapes (R171). -/
theorem exec_decode_controlChange (c : Channel) (d1 d2 : Byte) :
    (∃ op write, exec (decode (.evt (.cv24 (statusByte 0xB#4 c) d1 d2))) = nrpnCv24 op c d1 d2 write) ∨
    (∃ ev, exec (decode (.evt (.cv24 (statusByte 0xB#4 c) d1 d2))) =
      emitCv24 .ccGeneric (statusByte 0xB#4 c) d1 d2 ev) := by
  by_cases h99 : d1 = 99#8
  · subst h99; exact .inl ⟨_, _, exec_decode_cc99 c d2⟩
  by_cases h98 : d1 = 98#8
  · subst h98; exact .inl ⟨_, _, exec_decode_cc98 c d2⟩
  by_cases h6 : d1 = 6#8
  · subst h6; exact .inl ⟨_, _, exec_decode_cc6 c d2⟩
  by_cases h38 : d1 = 38#8
  · subst h38; exact .inl ⟨_, _, exec_decode_cc38 c d2⟩
  have hwf : (Instr.ccGeneric c d1 d2).wf = true := by simp [Instr.wf, nrpnController, h99, h98, h6, h38]
  exact .inr ⟨_, congrArg exec (decode_encode hwf)⟩

/-- A Control Change that the prologue ends writes no set. -/
theorem controlChange_keeps_nrpn {s : State} (c : Channel) {d1 d2 : Byte}
    (hbad : s.wired = false ∨ 128 ≤ d1.toNat ∨ 128 ≤ d2.toNat) :
    ∃ t, exec (decode (.evt (.cv24 (statusByte 0xB#4 c) d1 d2))) s = .next t ∧ t.nrpn = s.nrpn := by
  have hends : ¬ (s.wired = true ∧ (highByte d1 || highByte d2) = false) := by
    rintro ⟨hw, hlow⟩
    simp only [Bool.or_eq_false_iff, highByte_eq_false_iff] at hlow
    simp only [hw, Bool.true_eq_false, false_or] at hbad
    omega
  obtain ⟨op, write, h⟩ | ⟨ev, h⟩ := exec_decode_controlChange c d1 d2 <;> rw [h]
  · obtain ⟨_, e⟩ | ⟨_, _, e⟩ | ⟨hw, hlow, _⟩ := nrpnCv24_cases op c d1 d2 write s
    · exact ⟨_, e, State.endEvt_nrpn ..⟩
    · exact ⟨_, e, State.endEvt_nrpn ..⟩
    · exact absurd ⟨hw, hlow⟩ hends
  · obtain ⟨_, e⟩ | ⟨_, _, e⟩ | ⟨_, _, e⟩ := emitCv24_cases .ccGeneric (statusByte 0xB#4 c) d1 d2 ev s <;>
      exact ⟨_, e, State.endEvt_nrpn ..⟩

/-- A row of the table is what the controller's write makes of the row's set, on every channel. -/
theorem tableRow_of_write {f f' : NrpnFields} {ctl : Byte} {v : Data7} {st : Status} {ev : Option (Data14 × Data14)}
    {op : EvtOpName} {write : Channel → NrpnFields → NrpnResult} (hctl : highByte ctl = false)
    (hexec : ∀ c, exec (decode (.evt (.cv24 (statusByte 0xB#4 c) ctl (v.setWidth 8)))) =
      nrpnCv24 op c ctl (v.setWidth 8) (write c))
    (hwrite : ∀ c, write c f = ⟨f', st, ev.map fun pv => .nrpnParameterChange c pv.1 pv.2⟩) :
    TableRow f ctl v f' st ev := by
  intro c s hw hf
  rw [or_channel_eq_statusByte, hexec, nrpnCv24_of_wired hw hctl (highByte_setWidth v), hf, hwrite]
  exact ⟨_, _, rfl, NrpnBank.get_set_self .., rfl, rfl⟩

section
variable (f : NrpnFields) (a b v : Data7)

theorem tableRow_idMsb :
    TableRow f 99#8 v ⟨some v, f.identifierLsb, none, none⟩ .nrpnPending none :=
  tableRow_of_write rfl (fun c => exec_decode_cc99 c _) fun _ => by simp [writeIdMsb]

theorem tableRow_idLsb :
    TableRow f 98#8 v ⟨f.identifierMsb, some v, none, none⟩ .nrpnPending none :=
  tableRow_of_write rfl (fun c => exec_decode_cc98 c _) fun _ => by simp [writeIdLsb]

variable {f} in
theorem tableRow_valueMsb_ignores (hid : f.identifierMsb = none ∨ f.identifierLsb = none) :
    TableRow f 6#8 v f .nrpnIgnored none :=
  tableRow_of_write rfl (fun c => exec_decode_cc6 c _) fun c => writeValueMsb_ignores c _ hid

variable {f} in
theorem tableRow_valueLsb_ignores (hid : f.identifierMsb = none ∨ f.identifierLsb = none) :
    TableRow f 38#8 v f .nrpnIgnored none :=
  tableRow_of_write rfl (fun c => exec_decode_cc38 c _) fun c => writeValueLsb_ignores c _ hid

theorem tableRow_valueMsb_stores (vm : Option Data7) :
    TableRow ⟨some a, some b, vm, none⟩ 6#8 v ⟨some a, some b, some v, none⟩ .nrpnPending none :=
  tableRow_of_write rfl (fun c => exec_decode_cc6 c _) fun c => by simp [writeValueMsb_stores]

theorem tableRow_valueLsb_stores (vl : Option Data7) :
    TableRow ⟨some a, some b, none, vl⟩ 38#8 v ⟨some a, some b, none, some v⟩ .nrpnPending none :=
  tableRow_of_write rfl (fun c => exec_decode_cc38 c _) fun c => by simp [writeValueLsb_stores]

theorem tableRow_valueMsb_completes (vm : Option Data7) (y : Data7) :
    TableRow ⟨some a, some b, vm, some y⟩ 6#8 v ⟨some a, some b, none, none⟩ .ok (some (a ++ b, v ++ y)) :=
  tableRow_of_write rfl (fun c => exec_decode_cc6 c _) fun c => by simp [writeValueMsb_completes, nrpnEvent]

theorem tableRow_valueLsb_completes (x : Data7) (vl : Option Data7) :
    TableRow ⟨some a, some b, some x, vl⟩ 38#8 v ⟨some a, some b, none, none⟩ .ok (some (a ++ b, x ++ v)) :=
  tableRow_of_write rfl (fun c => exec_decode_cc38 c _) fun c => by simp [writeValueLsb_completes, nrpnEvent]

end

/-- Settles O18: every row is the row of its controller for the set it starts from. -/
theorem transitionTableHolds : Obligations.TransitionTableHolds := by
  refine ⟨fun c d1 d2 s hbad => ?_, fun a b x y a' b' x' y' => ?_⟩
  · rw [or_channel_eq_statusByte]
    exact controlChange_keeps_nrpn c hbad
  · exact ⟨tableRow_idMsb _ a, tableRow_idLsb _ b,
      ⟨tableRow_valueMsb_ignores x (.inl rfl), tableRow_valueLsb_ignores y (.inl rfl)⟩,
      tableRow_idMsb _ a', tableRow_idLsb _ b,
      ⟨tableRow_valueMsb_ignores x (.inr rfl), tableRow_valueLsb_ignores y (.inr rfl)⟩,
      tableRow_idMsb _ a, tableRow_idLsb _ b',
      ⟨tableRow_valueMsb_ignores x (.inl rfl), tableRow_valueLsb_ignores y (.inl rfl)⟩,
      tableRow_idMsb _ a', tableRow_idLsb _ b', tableRow_valueMsb_stores a b x _, tableRow_valueLsb_stores a b y _,
      tableRow_idMsb _ a', tableRow_idLsb _ b', tableRow_valueMsb_stores a b x' _,
      tableRow_valueLsb_completes a b y x _,
      tableRow_idMsb _ a', tableRow_idLsb _ b', tableRow_valueMsb_completes a b x _ y,
      tableRow_valueLsb_stores a b y' _⟩

/-! ## The discard (R146) -/

/-- The status an operation presented, on either port (R221). -/
def OpOutput.status : OpOutput → Status
  | .evt st _ _ => st
  | .ctl st _ => st

theorem writeValueMsb_status_ne_discarded (f : NrpnFields) (c : Channel) (v : Data7) :
    (writeValueMsb f c v).status ≠ .nrpnDiscarded := by
  obtain ⟨_, e⟩ | ⟨_, _, _, _, _, e⟩ | ⟨_, _, _, _, e⟩ := writeValueMsb_cases f c v <;> rw [e] <;> nofun

theorem writeValueLsb_status_ne_discarded (f : NrpnFields) (c : Channel) (v : Data7) :
    (writeValueLsb f c v).status ≠ .nrpnDiscarded := by
  obtain ⟨_, e⟩ | ⟨_, _, _, _, _, e⟩ | ⟨_, _, _, _, e⟩ := writeValueLsb_cases f c v <;> rw [e] <;> nofun

/-- The answer presents one output, whose status is not `NRPN_DISCARDED`. -/
def NeverDiscards (s : State) (answer : Result) : Prop :=
  ∃ t o, answer = .next t ∧ t.outputs = s.outputs ++ [o] ∧ o.status ≠ .nrpnDiscarded

theorem neverDiscards_of_plainAnswer {s : State} {answer : Result} (h : PlainAnswer s answer) :
    NeverDiscards s answer := by
  obtain ⟨st, ev, r, e, hst, _⟩ := h
  exact ⟨_, _, e, State.endEvt_outputs .., hst⟩

theorem nrpnCv24_neverDiscards (op : EvtOpName) (c : Channel) (d1 d2 : Byte) {write : NrpnFields → NrpnResult}
    (hwrite : ∀ f, (write f).status ≠ .nrpnDiscarded) (s : State) :
    NeverDiscards s (nrpnCv24 op c d1 d2 write s) := by
  obtain ⟨_, e⟩ | ⟨_, _, e⟩ | ⟨_, _, e⟩ := nrpnCv24_cases op c d1 d2 write s
  · exact ⟨_, _, e, State.endEvt_outputs .., nofun⟩
  · exact ⟨_, _, e, State.endEvt_outputs .., nofun⟩
  · exact ⟨_, _, e, State.endNrpn_outputs .., hwrite _⟩

theorem execCodecDecode_neverDiscards (cap : Capacity) (I : List Byte) (s : State) :
    NeverDiscards s (execCodecDecode cap I s) := by
  rw [execCodecDecode]
  obtain ⟨_, e⟩ | ⟨_, _, e⟩ | ⟨_, _, e⟩ := decode7_cases I (capValue cap) <;> rw [e] <;>
    exact ⟨_, _, rfl, rfl, nofun⟩

theorem execCodecEncode_neverDiscards (cap : Capacity) (I : List Byte) (s : State) :
    NeverDiscards s (execCodecEncode cap I s) := by
  rw [execCodecEncode]
  obtain ⟨_, e⟩ | ⟨_, e⟩ := encode7_cases I (capValue cap) <;> rw [e] <;> exact ⟨_, _, rfl, rfl, nofun⟩

theorem exec_neverDiscards (i : Instr) (s : State) : NeverDiscards s (exec i s) := by
  cases hnrpn : isNrpnOp i
  case false =>
    cases hport : i.onEvtPort
    case true => exact neverDiscards_of_plainAnswer (exec_plainAnswer s hport hnrpn)
    case false =>
      cases i with
      | begin => exact ⟨_, _, rfl, rfl, nofun⟩
      | codecDecode cap I => exact execCodecDecode_neverDiscards cap I s
      | codecEncode cap I => exact execCodecEncode_neverDiscards cap I s
      | unsupportedCtl w I => exact ⟨_, _, rfl, rfl, nofun⟩
      | _ => cases hport
  case true =>
    cases i with
    | ccNrpnIdMsb c d2 =>
      exact nrpnCv24_neverDiscards _ c _ d2 (write := fun f => writeIdMsb f (data7 d2)) (fun _ => nofun) s
    | ccNrpnIdLsb c d2 =>
      exact nrpnCv24_neverDiscards _ c _ d2 (write := fun f => writeIdLsb f (data7 d2)) (fun _ => nofun) s
    | ccDataEntryMsb c d2 => exact nrpnCv24_neverDiscards _ c _ d2 (writeValueMsb_status_ne_discarded · c _) s
    | ccDataEntryLsb c d2 => exact nrpnCv24_neverDiscards _ c _ d2 (writeValueLsb_status_ne_discarded · c _) s
    | _ => cases hnrpn

theorem not_presents_of_discarded {o : OpOutput} (ho : o.status = .nrpnDiscarded) (i : Instr) (s : State) :
    ¬ Presents i s o := by
  rintro ⟨t, hexec, hout⟩
  obtain ⟨t', o', hexec', hout', hne⟩ := exec_neverDiscards i s
  cases hexec.symm.trans hexec'
  have heq : o = o' := by simpa using hout.symm.trans hout'
  exact hne (heq ▸ ho)

/-- Settles O21: the merge never fails, so no operation presents the status of a discard. -/
theorem discardIsUnreachable : Obligations.DiscardIsUnreachable :=
  ⟨rfl, fun i s _ _ _ => ⟨not_presents_of_discarded rfl i s, not_presents_of_discarded rfl i s⟩⟩

end Sys2Proof.Machine

/-! The dispatcher's event operations, whole (R171 to R181): the prologue, the note path, the generic Control Change and
the refused event. -/

namespace Sys2Proof.Machine
open Sys2Proof.Claims

/-! ## A plain event operation, outcome by outcome -/

section
variable (op : EvtOpName) (S d1 d2 : Byte) (ev : AppEvent) {s : State}

theorem emitCv24_of_unwired (hw : s.wired = false) :
    emitCv24 op S d1 d2 ev s = .next (s.endEvt .notReady none none) := by
  simp only [emitCv24, cv24Prologue, readyPrologue_of_unwired hw]

variable {d1 d2}

theorem emitCv24_of_high (hw : s.wired = true) (hhigh : 128 ≤ d1.toNat ∨ 128 ≤ d2.toNat) :
    emitCv24 op S d1 d2 ev s =
      .next (s.endEvt .malformedByte none (some (cvRecord op S d1 d2 .malformedByte))) := by
  have hbad : (highByte d1 || highByte d2) = true := by simpa [highByte_iff] using hhigh
  simp only [emitCv24, cv24Prologue, readyPrologue_of_wired hw, hbad, ↓reduceIte]

theorem emitCv24_of_low (hw : s.wired = true) (h1 : d1.toNat < 128) (h2 : d2.toNat < 128) :
    emitCv24 op S d1 d2 ev s = .next (s.endEvt .ok (some ev) (some (cvRecord op S d1 d2 .ok))) := by
  have hgood : (highByte d1 || highByte d2) = false := by simp [highByte_eq_false_iff, h1, h2]
  simp only [emitCv24, cv24Prologue, readyPrologue_of_wired hw, hgood, Bool.false_eq_true, ↓reduceIte]

end

/-! ## Forwarded operations (R175 to R177, R180) -/

section
variable {i : Instr} {op : EvtOpName} {S d1 d2 : Byte} {ev : AppEvent}

theorem cvPrologue_of_emitCv24 (hexec : exec i = emitCv24 op S d1 d2 ev) : CvPrologue i op S d1 d2 := by
  intro s
  rw [hexec]
  exact ⟨emitCv24_of_unwired op S d1 d2 ev, emitCv24_of_high op S ev⟩

theorem cvCompletes_of_emitCv24 (hexec : exec i = emitCv24 op S d1 d2 ev) :
    CvCompletes i d1 d2 fun s => presented s .ok (some ev) (cvRec op S d1 d2 .ok) := by
  intro s hw h1 h2
  rw [hexec]
  exact emitCv24_of_low op S ev hw h1 h2

/-- A status byte is its kind and its channel (R71). -/
theorem statusByte_kind_chan {k : BitVec 4} (hkind : S.toNat / 16 = k.toNat) : statusByte k (chan S) = S := by
  rw [chan, ← statusChannel_eq_ofNat, statusByte_of_statusKind ((statusKind_eq_iff S k).mpr hkind)]

/-- An operation that forwards its event, whole: what decodes to it, its prologue, and what it presents past it. -/
theorem forwards_of_emitCv24 {k : BitVec 4} (hkind : S.toNat / 16 = k.toNat) (hwf : i.wf = true)
    (hencode : encode i = .evt (.cv24 (statusByte k (chan S)) d1 d2))
    (hexec : exec i = emitCv24 op (statusByte k (chan S)) d1 d2 ev) :
    decode (.evt (.cv24 S d1 d2)) = i ∧ CvPrologue i op S d1 d2 ∧
      CvCompletes i d1 d2 fun s => presented s .ok (some ev) (cvRec op S d1 d2 .ok) := by
  rw [statusByte_kind_chan hkind] at hencode hexec
  exact ⟨decode_of_encode_eq hwf hencode, cvPrologue_of_emitCv24 hexec, cvCompletes_of_emitCv24 hexec⟩

end

/-- Settles O7: NOTE_OFF forwards a Note Off with the velocity of its encoding. -/
theorem noteOffIsForwarded : Obligations.NoteOffIsForwarded := by
  intro S d1 d2 hlo hhi
  exact forwards_of_emitCv24 (k := 0x8#4) (by rw [BitVec.toNat_ofNat]; omega) rfl rfl rfl

/-- Settles O8: NOTE_ON forwards a Note On; a velocity other than 0 is what makes the operation well formed. -/
theorem noteOnIsForwarded : Obligations.NoteOnIsForwarded := by
  intro S d1 d2 hlo hhi hvel
  have hwf : (Instr.noteOn (chan S) d1 d2).wf = true := by simpa [Instr.wf, ← BitVec.toNat_inj] using hvel
  exact forwards_of_emitCv24 (k := 0x9#4) (by rw [BitVec.toNat_ofNat]; omega) hwf rfl rfl

/-- Settles O9: NOTE_ON_VEL0 forwards a Note Off whose velocity is 0. -/
theorem noteOnWithVelocityZeroIsANoteOff : Obligations.NoteOnWithVelocityZeroIsANoteOff := by
  intro S d1 hlo hhi
  exact forwards_of_emitCv24 (k := 0x9#4) (by rw [BitVec.toNat_ofNat]; omega) rfl rfl rfl

/-- Settles O11: CC_GENERIC forwards its Control Change; a controller outside the four NRPN controllers is what makes
the operation well formed. -/
theorem genericControlChangeIsForwarded : Obligations.GenericControlChangeIsForwarded := by
  intro S d1 d2 hlo hhi h6 h38 h98 h99
  have hwf : (Instr.ccGeneric (chan S) d1 d2).wf = true := by
    simp [Instr.wf, nrpnController, ← BitVec.toNat_inj, h6, h38, h98, h99]
  exact forwards_of_emitCv24 (k := 0xB#4) (by rw [BitVec.toNat_ofNat]; omega) hwf rfl rfl

/-! ## The refused event (R181) -/

theorem decode_cv24_of_reserved {S : Byte} (d1 d2 : Byte) (h8 : S.toNat / 16 ≠ 0x8) (h9 : S.toNat / 16 ≠ 0x9)
    (hB : S.toNat / 16 ≠ 0xB) : decode (.evt (.cv24 S d1 d2)) = .unsupported S d1 d2 :=
  decodeCv24_of_reserved d1 d2 ((kindSupported_eq_false_iff S).mpr (by omega))

/-- Settles O12: a reserved kind decodes to UNSUPPORTED, which looks at `wired` only. -/
theorem unsupportedEventIsRefused : Obligations.UnsupportedEventIsRefused := by
  intro S d1 d2 h8 h9 hB
  exact ⟨decode_cv24_of_reserved d1 d2 h8 h9 hB,
    fun s => ⟨execUnsupported_of_unwired S d1 d2, execUnsupported_of_wired S d1 d2⟩⟩

/-! ## The prologue of every operation (R171) -/

theorem chan_statusByte (k c : BitVec 4) : chan (statusByte k c) = c := by
  rw [chan, ← statusChannel_eq_ofNat, statusChannel_statusByte]

/-- Every `CV24` operation other than UNSUPPORTED has one of two shapes, under its own name and with the bytes of its
own encoding: it forwards an event, or it writes the field set of its channel. -/
theorem exec_cv24_shape {i : Instr} {S d1 d2 : Byte} (hencode : encode i = .evt (.cv24 S d1 d2))
    (hsupported : evtName i ≠ some .unsupported) : ∃ op, evtName i = some op ∧
      ((∃ ev, exec i = emitCv24 op S d1 d2 ev) ∨
        statusByte 0xB#4 (chan S) = S ∧ ∃ write, exec i = nrpnCv24 op (chan S) d1 d2 write) := by
  cases i <;> cases hencode
  case noteOff | noteOnVel0 | noteOn | ccGeneric => exact ⟨_, rfl, .inl ⟨_, rfl⟩⟩
  case unsupported => exact absurd rfl hsupported
  all_goals rw [chan_statusByte]
  case ccNrpnIdMsb c => exact ⟨_, rfl, .inr ⟨rfl, fun f => writeIdMsb f (data7 d2), rfl⟩⟩
  case ccNrpnIdLsb c => exact ⟨_, rfl, .inr ⟨rfl, fun f => writeIdLsb f (data7 d2), rfl⟩⟩
  case ccDataEntryMsb c => exact ⟨_, rfl, .inr ⟨rfl, fun f => writeValueMsb f c (data7 d2), rfl⟩⟩
  case ccDataEntryLsb c => exact ⟨_, rfl, .inr ⟨rfl, fun f => writeValueLsb f c (data7 d2), rfl⟩⟩

theorem cvPrologue_of_encode {i : Instr} {S d1 d2 : Byte} (hencode : encode i = .evt (.cv24 S d1 d2))
    (hsupported : evtName i ≠ some .unsupported) : ∃ op, evtName i = some op ∧ CvPrologue i op S d1 d2 := by
  obtain ⟨op, hname, ⟨ev, hexec⟩ | ⟨hS, write, hexec⟩⟩ := exec_cv24_shape hencode hsupported
  · exact ⟨op, hname, cvPrologue_of_emitCv24 hexec⟩
  · exact ⟨op, hname, cvPrologue_of_nrpnCv24 hS hexec⟩

theorem execSysex_of_unwired {s : State} (F : List Byte) (hw : s.wired = false) :
    execSysex F s = .next (s.endEvt .notReady none none) := by
  simp only [execSysex, readyPrologue_of_unwired hw]

/-- The operations of the event port by what their prologue checks: SYSEX, UNSUPPORTED, and the other `CV24`
operations. -/
theorem onEvtPort_cases {i : Instr} (hport : i.onEvtPort = true) : (∃ F, i = .sysex F) ∨
    (∃ S d1 d2, i = .unsupported S d1 d2) ∨
    ∃ S d1 d2, encode i = .evt (.cv24 S d1 d2) ∧ evtName i ≠ some .unsupported := by
  cases i with
  | sysex F => exact .inl ⟨F, rfl⟩
  | unsupported S d1 d2 => exact .inr (.inl ⟨S, d1, d2, rfl⟩)
  | begin | codecDecode | codecEncode | unsupportedCtl => cases hport
  | _ => exact .inr (.inr ⟨_, _, _, rfl, nofun⟩)

/-- Before BEGIN every event-port operation is turned away. -/
theorem exec_of_unwired {i : Instr} {s : State} (hport : i.onEvtPort = true) (hw : s.wired = false) :
    exec i s = .next (turnedAway s) := by
  obtain ⟨F, rfl⟩ | ⟨S, d1, d2, rfl⟩ | ⟨S, d1, d2, hencode, hsupported⟩ := onEvtPort_cases hport
  · exact execSysex_of_unwired F hw
  · exact execUnsupported_of_unwired S d1 d2 hw
  · obtain ⟨_, _, hprologue⟩ := cvPrologue_of_encode hencode hsupported
    exact (hprologue s).1 hw

/-- A message of a supported kind does not decode to UNSUPPORTED, whose encoding would carry the same status byte. -/
theorem evtName_decode_of_supported {S : Byte} (d1 d2 : Byte) (hkind : kindSupported S = true) :
    evtName (decode (.evt (.cv24 S d1 d2))) ≠ some .unsupported := by
  have hwf := decode_wf (.evt (.cv24 S d1 d2))
  have hencode := encode_decode (.evt (.cv24 S d1 d2))
  cases hi : decode (.evt (.cv24 S d1 d2)) <;> rw [hi] at hwf hencode
  case unsupported S' d1' d2' =>
    cases hencode
    simp [Instr.wf, hkind] at hwf
  all_goals nofun

/-- Settles O6: the prologue is the same for the two shapes of a `CV24` operation, and UNSUPPORTED runs its first line
only. -/
theorem eventPrologueRunsFirst : Obligations.EventPrologueRunsFirst := by
  refine ⟨fun i s => exec_of_unwired, fun S d1 d2 s hw hkind hhigh => ?_, fun S d1 d2 s hw h8 h9 hB => ?_⟩
  · have hsupported : kindSupported S = true := by
      rw [← Bool.not_eq_false, kindSupported_eq_false_iff]
      omega
    obtain ⟨op, hname, hprologue⟩ :=
      cvPrologue_of_encode (encode_decode _) (evtName_decode_of_supported d1 d2 hsupported)
    exact ⟨op, hname, (hprologue s).2 hw hhigh⟩
  · rw [decode_cv24_of_reserved d1 d2 h8 h9 hB]
    exact ⟨_, execUnsupported_of_wired S d1 d2 hw⟩

/-! ## Note On with velocity 0 is Note Off (R178) -/

theorem or_channel_eq_statusByte_noteOn : ∀ c : Channel, 0x90#8 ||| c.setWidth 8 = statusByte 0x9#4 c := by decide

theorem or_channel_eq_statusByte_noteOff : ∀ c : Channel, 0x80#8 ||| c.setWidth 8 = statusByte 0x8#4 c := by decide

theorem exec_decode_noteOnVel0 (c : Channel) (p : Byte) : exec (decode (.evt (.cv24 (statusByte 0x9#4 c) p 0#8))) =
    emitCv24 .noteOnVel0 (statusByte 0x9#4 c) p 0#8 (.noteOff c (data7 p) 0#7) :=
  congrArg exec (decode_encode (i := .noteOnVel0 c p) rfl)

theorem exec_decode_noteOff (c : Channel) (p v : Byte) : exec (decode (.evt (.cv24 (statusByte 0x8#4 c) p v))) =
    emitCv24 .noteOff (statusByte 0x8#4 c) p v (.noteOff c (data7 p) (data7 v)) :=
  congrArg exec (decode_encode (i := .noteOff c p v) rfl)

/-- The states differ at most in the diagnostic records of their outputs. -/
def AgreeButRecords (t₁ t₂ : State) : Prop :=
  t₁.outputs.map OpOutput.withoutDiag = t₂.outputs.map OpOutput.withoutDiag ∧
    { t₁ with outputs := [] } = { t₂ with outputs := [] }

theorem endEvt_agreeButRecords (s : State) (st : Status) (ev : Option AppEvent) (r₁ r₂ : DiagRecord) :
    AgreeButRecords (s.endEvt st ev (some r₁)) (s.endEvt st ev (some r₂)) :=
  ⟨by simp [OpOutput.withoutDiag], rfl⟩

/-- Two plain event operations on the same data bytes and with the same event agree, whatever their names and status
bytes. -/
theorem emitCv24_agreeButRecords (op₁ op₂ : EvtOpName) (S₁ S₂ d1 d2 : Byte) (ev : AppEvent) (s : State) : ∃ t₁ t₂,
    emitCv24 op₁ S₁ d1 d2 ev s = .next t₁ ∧ emitCv24 op₂ S₂ d1 d2 ev s = .next t₂ ∧ AgreeButRecords t₁ t₂ := by
  cases hw : s.wired
  · exact ⟨_, _, emitCv24_of_unwired _ _ _ _ _ hw, emitCv24_of_unwired _ _ _ _ _ hw, rfl, rfl⟩
  by_cases hhigh : 128 ≤ d1.toNat ∨ 128 ≤ d2.toNat
  · exact ⟨_, _, emitCv24_of_high _ _ _ hw hhigh, emitCv24_of_high _ _ _ hw hhigh, endEvt_agreeButRecords ..⟩
  · obtain ⟨h1, h2⟩ : d1.toNat < 128 ∧ d2.toNat < 128 := by omega
    exact ⟨_, _, emitCv24_of_low _ _ _ hw h1 h2, emitCv24_of_low _ _ _ hw h1 h2, endEvt_agreeButRecords ..⟩

theorem toNat_setWidth_lt (v : Data7) : (v.setWidth 8).toNat < 128 := by
  rw [← highByte_eq_false_iff, highByte_setWidth]

/-- Settles O10: both messages are plain event operations with the same data bytes and the same Note Off. -/
theorem noteOnVelocityZeroAndNoteOffAgree : Obligations.NoteOnVelocityZeroAndNoteOffAgree := by
  refine ⟨fun c p s => ?_, fun c p v s hw => ?_⟩
  · rw [or_channel_eq_statusByte_noteOn, or_channel_eq_statusByte_noteOff, exec_decode_noteOnVel0,
      exec_decode_noteOff]
    exact emitCv24_agreeButRecords ..
  · rw [or_channel_eq_statusByte_noteOff, exec_decode_noteOff,
      emitCv24_of_low _ _ _ hw (toNat_setWidth_lt p) (toNat_setWidth_lt v), data7_setWidth, data7_setWidth]
    exact ⟨_, _, rfl, State.endEvt_outputs ..⟩

end Sys2Proof.Machine

/-! SYSEX, whole (R185 to R192), and the record that every event-port operation offers (R172, R207). -/

namespace Sys2Proof.Machine
open Sys2Proof.Claims

/-! ## The checks of SYSEX in their order (R225) -/

section
variable {F : List Byte} {s : State} (hw : s.wired = true)
include hw

theorem execSysex_of_long (hlong : s.cfg.maxSysexLen < F.length) :
    execSysex F s = .next (s.endSysex F.length none .sysexTooLong none) := by
  simp only [execSysex, readyPrologue_of_wired hw, gt_iff_lt, if_pos hlong]

variable (hfits : F.length ≤ s.cfg.maxSysexLen)
include hfits

theorem execSysex_of_high (hhigh : ∃ b ∈ F, 128 ≤ b.toNat) :
    execSysex F s = .next (s.endSysex F.length none .malformedByte none) := by
  have hany : F.any highByte = true := by simpa [highByte_iff] using hhigh
  simp only [execSysex, readyPrologue_of_wired hw, gt_iff_lt, if_neg hfits.not_gt, if_pos hany]

variable (hlow : AllSevenBit F)
include hlow

theorem execSysex_of_short (hshort : F.length < s.cfg.mfrId.length + 1) :
    execSysex F s = .next (s.endSysex F.length none .sysexTooShort none) := by
  rw [allSevenBit_iff] at hlow
  rw [← prefixLen_eq_length_mfrId] at hshort
  simp only [execSysex, readyPrologue_of_wired hw, gt_iff_lt, if_neg hfits.not_gt, hlow, Bool.false_eq_true,
    ↓reduceIte, if_pos hshort]

theorem execSysex_of_foreign (hreaches : s.cfg.mfrId.length + 1 ≤ F.length)
    (hforeign : F.take s.cfg.mfrId.length ≠ s.cfg.mfrId.map (BitVec.setWidth 8)) :
    execSysex F s = .next (s.endSysex F.length none .sysexForeign none) := by
  rw [allSevenBit_iff] at hlow
  rw [← prefixLen_eq_length_mfrId] at hreaches hforeign
  have hslice : slice F 0 s.cfg.prefixLen ≠ mfrBytes s.cfg := hforeign
  simp only [execSysex, readyPrologue_of_wired hw, gt_iff_lt, if_neg hfits.not_gt, hlow, Bool.false_eq_true,
    ↓reduceIte, if_neg hreaches.not_gt, if_pos hslice]

end

/-! ## The command (R190 to R192) -/

section
variable {F rest : List Byte} {cmd : Byte} {v : Data7} {s : State}

theorem sysexCommand_of_unrecognized (hcmd : s.cfg.hasCmd v = false) : sysexCommand F v s =
    s.endSysex F.length (some v) .unrecognizedSysexCommand (some (.unrecognizedSysExCommand v)) := by
  simp [sysexCommand, hcmd]

theorem sysexCommand_of_overflow (hF : F = mfrBytes s.cfg ++ cmd :: rest) (hcmd : s.cfg.hasCmd v = true)
    (hdecode : decode7 rest s.cfg.decodeCapacity = .err .bufferOverflow) :
    sysexCommand F v s = s.endSysex F.length (some v) .bufferOverflow none := by
  have hslice : slice F (s.cfg.prefixLen + 1) F.length = rest := hF ▸ slice_payload s.cfg cmd rest
  simp [sysexCommand, hcmd, hslice, hdecode]

end

/-- Settles O39: check by check, in the order of R225; the payload of a frame that passes them is 7-bit, so that only
its length can keep it from being unpacked. -/
theorem sysexChecksAndDispatches : Obligations.SysexChecksAndDispatches := by
  intro F s
  refine ⟨rfl, execSysex_of_unwired F, execSysex_of_long, fun hw hfits => ⟨execSysex_of_high hw hfits,
    execSysex_of_short hw hfits, execSysex_of_foreign hw hfits, fun cmd rest hlow hF => ?_⟩⟩
  have hdispatch : exec (.sysex F) s = .next (sysexCommand F (val7 cmd) s) :=
    execSysex_of_frame hw hF hfits ((allSevenBit_iff F).mp hlow)
  have hrest : AllSevenBit rest := fun b hb => hlow b (by simp [hF, hb])
  rw [hdispatch]
  refine ⟨fun hcmd => ?_, fun hcmd hover => ?_, fun hcmd hroom => ?_⟩
  · rw [sysexCommand_of_unrecognized hcmd]; rfl
  · rw [sysexCommand_of_overflow hF hcmd (decode7_of_over hrest hover)]; rfl
  · obtain ⟨payload, hdecode⟩ := exists_decode7_eq_ok hrest hroom
    refine ⟨payload, (unpacks_of_decode7_eq_ok hdecode).2, ?_⟩
    rw [sysexCommand_of_decode7 hF hcmd hdecode]; rfl

/-! ## The record of an event-port operation (R207) -/

/-- `r` is the record that operation `i` offers when it ends with status `st`: its name, and the fields of its
encoding. -/
def OwnRecord (i : Instr) (s : State) (st : Status) (r : DiagRecord) : Prop :=
  evtName i = some r.op ∧ r.status = st ∧
  (∀ S d1 d2, encode i = .evt (.cv24 S d1 d2) → r.op ≠ .unsupported → r = cvRec r.op S d1 d2 st) ∧
  (∀ S d1 d2, i = .unsupported S d1 d2 → r = ⟨.unsupported, S, none, none, none, none, st⟩) ∧
  (∀ F, i = .sysex F → ∃ cmd, r = sxRec F.length cmd st ∧
    (cmd.isSome = true ↔ st = .ok ∨ st = .bufferOverflow ∨ st = .unrecognizedSysexCommand) ∧
    ∀ x, cmd = some x → ∃ b, F[s.cfg.mfrId.length]? = some b ∧ x = val7 b)

/-- The operation presents a status, at most one event, and its own record. -/
def OffersOwnRecord (i : Instr) (s : State) : Prop :=
  ∃ st ev r b, Presents i s (.evt st ev (some ⟨r, b⟩)) ∧ OwnRecord i s st r

theorem presents_endEvt {i : Instr} {s : State} {st : Status} {ev : Option AppEvent} {r : DiagRecord}
    (h : exec i s = .next (s.endEvt st ev (some r))) :
    Presents i s (.evt st ev (some ⟨r, Config.freeDiagDelivered s.diagDraws⟩)) :=
  ⟨_, h, State.endEvt_outputs ..⟩

section
variable {i : Instr} {s : State}

theorem ownRecord_cv24 {op : EvtOpName} {S d1 d2 : Byte} (hencode : encode i = .evt (.cv24 S d1 d2))
    (hsupported : evtName i ≠ some .unsupported) (hname : evtName i = some op) (st : Status) :
    OwnRecord i s st (cvRecord op S d1 d2 st) := by
  refine ⟨hname, rfl, fun S' d1' d2' hencode' _ => ?_, ?_, ?_⟩
  · cases hencode.symm.trans hencode'; rfl
  · rintro S' d1' d2' rfl
    exact absurd rfl hsupported
  · rintro F rfl
    cases hencode

theorem offersOwnRecord_cv24 {S d1 d2 : Byte} (hw : s.wired = true) (hencode : encode i = .evt (.cv24 S d1 d2))
    (hsupported : evtName i ≠ some .unsupported) : OffersOwnRecord i s := by
  obtain ⟨op, hname, ⟨ev, hexec⟩ | ⟨hS, write, hexec⟩⟩ := exec_cv24_shape hencode hsupported
  · obtain ⟨hunwired, _⟩ | ⟨_, _, e⟩ | ⟨_, _, e⟩ := emitCv24_cases op S d1 d2 ev s
    · simp [hw] at hunwired
    all_goals
      rw [← hexec] at e
      exact ⟨_, _, _, _, presents_endEvt e, ownRecord_cv24 hencode hsupported hname _⟩
  · obtain ⟨hunwired, _⟩ | ⟨_, _, e⟩ | ⟨_, _, e⟩ := nrpnCv24_cases op (chan S) d1 d2 write s
    · simp [hw] at hunwired
    all_goals rw [← hexec, hS] at e
    · exact ⟨_, _, _, _, presents_endEvt e, ownRecord_cv24 hencode hsupported hname _⟩
    · exact ⟨_, _, _, _, ⟨_, e, State.endNrpn_outputs ..⟩, ownRecord_cv24 hencode hsupported hname _⟩

theorem ownRecord_unsupported (S d1 d2 : Byte) :
    OwnRecord (.unsupported S d1 d2) s .unsupportedEvent (unsupportedRecord S) := by
  refine ⟨rfl, rfl, fun _ _ _ _ hop => absurd rfl hop, fun S' d1' d2' h => ?_, nofun⟩
  cases h; rfl

theorem ownRecord_sysex {F : List Byte} {cmd : Option Data7} {st : Status}
    (hstatus : cmd.isSome = true ↔ st = .ok ∨ st = .bufferOverflow ∨ st = .unrecognizedSysexCommand)
    (hcmd : ∀ x, cmd = some x → ∃ b, F[s.cfg.mfrId.length]? = some b ∧ x = val7 b) :
    OwnRecord (.sysex F) s st (sysexRecord F.length cmd st) := by
  refine ⟨rfl, rfl, nofun, nofun, fun F' h => ?_⟩
  cases h
  exact ⟨cmd, rfl, hstatus, hcmd⟩

theorem offersOwnRecord_sysex (F : List Byte) (hw : s.wired = true) : OffersOwnRecord (.sysex F) s := by
  have offers : ∀ {cmd st ev}, exec (.sysex F) s = .next (s.endSysex F.length cmd st ev) →
      (cmd.isSome = true ↔ st = .ok ∨ st = .bufferOverflow ∨ st = .unrecognizedSysexCommand) →
      (∀ x, cmd = some x → ∃ b, F[s.cfg.mfrId.length]? = some b ∧ x = val7 b) → OffersOwnRecord (.sysex F) s :=
    fun e hstatus hcmd => ⟨_, _, _, _, presents_endEvt e, ownRecord_sysex hstatus hcmd⟩
  obtain ⟨hunwired, _⟩ | ⟨_, st, hst, e⟩ | ⟨_, _, b, hb, h⟩ := execSysex_cases F s
  · simp [hw] at hunwired
  · refine offers e ?_ nofun
    obtain rfl | rfl | rfl | rfl := hst <;> simp
  · have hcmd : ∀ x, some (data7 b) = some x → ∃ b, F[s.cfg.mfrId.length]? = some b ∧ x = val7 b :=
      fun x hx => ⟨b, hb, (Option.some.inj hx).symm⟩
    obtain ⟨_, e⟩ | ⟨_, e⟩ | ⟨_, _, _, e⟩ := h <;> exact offers e (by simp) hcmd

theorem offersOwnRecord_of_wired (hport : i.onEvtPort = true) (hw : s.wired = true) : OffersOwnRecord i s := by
  obtain ⟨F, rfl⟩ | ⟨S, d1, d2, rfl⟩ | ⟨S, d1, d2, hencode, hsupported⟩ := onEvtPort_cases hport
  · exact offersOwnRecord_sysex F hw
  · exact ⟨_, _, _, _, presents_endEvt (execUnsupported_of_wired S d1 d2 hw), ownRecord_unsupported S d1 d2⟩
  · exact offersOwnRecord_cv24 hw hencode hsupported

end

/-- Settles O13: a control-port operation presents its response; one on the event port is turned away without a record,
or offers its own. -/
theorem eachEventOperationOffersItsOwnRecord : Obligations.EachEventOperationOffersItsOwnRecord := by
  refine ⟨fun i s hport => ?_, fun i s hport => ?_⟩
  · obtain ⟨st, out, hexec⟩ := exec_ctl hport
    exact ⟨st, out, _, hexec s, rfl⟩
  · cases hw : s.wired
    · exact ⟨_, _, _, ⟨_, exec_of_unwired hport hw, rfl⟩, fun _ => ⟨rfl, rfl⟩, nofun⟩
    · obtain ⟨st, ev, r, b, hpresents, hname, hrecord⟩ := offersOwnRecord_of_wired hport hw
      exact ⟨st, ev, _, hpresents, nofun, fun _ => ⟨r, b, r.op, rfl, hname, rfl, hrecord⟩⟩

end Sys2Proof.Machine

/-! The routing of Control Changes by the assembler's answer (R134, R179). -/

namespace Sys2Proof.Machine
open Sys2Proof.Claims

/-! ## The assembler's answer (R134) -/

theorem NrpnResult.answer_ne_notNrpn (r : NrpnResult) : r.answer ≠ .notNrpn := by
  unfold NrpnResult.answer
  split <;> nofun

section
variable (f : NrpnFields) (c : Channel) (n v : Data7)

theorem onControlChange_of_other (h : n ≠ 99#7 ∧ n ≠ 98#7 ∧ n ≠ 6#7 ∧ n ≠ 38#7) :
    onControlChange f c n v = (.notNrpn, f) := by
  obtain ⟨h99, h98, h6, h38⟩ := h
  simp only [onControlChange, if_neg h99, if_neg h98, if_neg h6, if_neg h38]

theorem onControlChange_eq_notNrpn_iff :
    (onControlChange f c n v).1 = .notNrpn ↔ n ≠ 99#7 ∧ n ≠ 98#7 ∧ n ≠ 6#7 ∧ n ≠ 38#7 := by
  refine ⟨fun h => ⟨?_, ?_, ?_, ?_⟩, fun h => by rw [onControlChange_of_other f c n v h]⟩ <;> rintro rfl
  · exact NrpnResult.answer_ne_notNrpn (writeIdMsb f v) h
  · exact NrpnResult.answer_ne_notNrpn (writeIdLsb f v) h
  · exact NrpnResult.answer_ne_notNrpn (writeValueMsb f c v) h
  · exact NrpnResult.answer_ne_notNrpn (writeValueLsb f c v) h

/-- A value write emits an event with the status `OK` only (R137). -/
theorem writeValueMsb_status_of_event {e : AppEvent} (h : (writeValueMsb f c v).event = some e) :
    (writeValueMsb f c v).status = .ok := by
  obtain ⟨_, hwrite⟩ | ⟨_, _, _, _, _, hwrite⟩ | ⟨_, _, _, _, hwrite⟩ := writeValueMsb_cases f c v <;>
    rw [hwrite] at h ⊢
  all_goals cases h

theorem writeValueLsb_status_of_event {e : AppEvent} (h : (writeValueLsb f c v).event = some e) :
    (writeValueLsb f c v).status = .ok := by
  obtain ⟨_, hwrite⟩ | ⟨_, _, _, _, _, hwrite⟩ | ⟨_, _, _, _, hwrite⟩ := writeValueLsb_cases f c v <;>
    rw [hwrite] at h ⊢
  all_goals cases h

end

/-! ## How the dispatcher ends the operation (R179) -/

/-- The status and the event with which the Control Change of `n` and `v` on channel `c` ends, by the assembler's
answer. -/
def endingOf (c : Channel) (n v : Data7) : NrpnAnswer → Status × Option AppEvent
  | .notNrpn => (.ok, some (.controlChange c n v))
  | .consumed st => (st, none)
  | .emitted e => (.ok, some e)

/-- An NRPN write ends with its own status and event. -/
theorem endingOf_answer (c : Channel) (n v : Data7) {r : NrpnResult} (hstatus : ∀ e, r.event = some e → r.status = .ok) :
    endingOf c n v r.answer = (r.status, r.event) := by
  obtain ⟨fields, st, _ | e⟩ := r
  · rfl
  · cases hstatus e rfl
    rfl

/-- From `s`, an operation that ends in `result` follows the assembler's `answer` to the Control Change of `n` and `v`
on channel `c`: it ends as the answer says, and the channel's set becomes the one the assembler leaves. -/
def Follows (s : State) (c : Channel) (n v : Data7) (result : Result) (answer : NrpnAnswer × NrpnFields) : Prop :=
  ∃ (t : State) (d : Option DiagOffer), result = .next t ∧ t.nrpn = s.nrpn.set c answer.2 ∧
    t.wired = s.wired ∧ t.cfg = s.cfg ∧
    t.outputs = s.outputs ++ [.evt (endingOf c n v answer.1).1 (endingOf c n v answer.1).2 d]

section
variable {s : State} (hw : s.wired = true) {c : Channel} {n v : Data7}
include hw

theorem follows_of_write {op : EvtOpName} {write : NrpnFields → NrpnResult}
    (hexec : exec (decode (.evt (.cv24 (statusByte 0xB#4 c) (n.setWidth 8) (v.setWidth 8)))) =
      nrpnCv24 op c (n.setWidth 8) (v.setWidth 8) write)
    (hanswer : ∀ f, onControlChange f c n v = ((write f).answer, (write f).fields))
    (hstatus : ∀ f e, (write f).event = some e → (write f).status = .ok) :
    Follows s c n v (exec (decode (.evt (.cv24 (statusByte 0xB#4 c) (n.setWidth 8) (v.setWidth 8)))) s)
      (onControlChange (s.nrpn.get c) c n v) := by
  rw [hexec, hanswer, nrpnCv24_of_wired hw (highByte_setWidth n) (highByte_setWidth v)]
  exact ⟨_, _, rfl, rfl, rfl, rfl, by rw [State.endNrpn_outputs, endingOf_answer c n v (hstatus _)]⟩

theorem follows_of_other (h : n ≠ 99#7 ∧ n ≠ 98#7 ∧ n ≠ 6#7 ∧ n ≠ 38#7) :
    Follows s c n v (exec (decode (.evt (.cv24 (statusByte 0xB#4 c) (n.setWidth 8) (v.setWidth 8)))) s)
      (onControlChange (s.nrpn.get c) c n v) := by
  rw [onControlChange_of_other _ c n v h]
  obtain ⟨h99, h98, h6, h38⟩ := h
  have hne : ∀ m : Data7, n ≠ m → n.setWidth 8 ≠ m.setWidth 8 := fun m hnm heq =>
    hnm (by rw [← data7_setWidth n, heq, data7_setWidth])
  have hwf : (Instr.ccGeneric c (n.setWidth 8) (v.setWidth 8)).wf = true := by
    simpa [Instr.wf, nrpnController] using ⟨⟨⟨hne 99#7 h99, hne 98#7 h98⟩, hne 6#7 h6⟩, hne 38#7 h38⟩
  have hexec := (congrArg (exec · s) (decode_encode hwf)).trans
    (emitCv24_of_low _ _ _ hw (toNat_setWidth_lt n) (toNat_setWidth_lt v))
  rw [data7_setWidth, data7_setWidth] at hexec
  exact ⟨_, _, hexec, by simp, by simp, by simp, State.endEvt_outputs ..⟩

/-- Every Control Change with 7-bit data bytes ends as the assembler answers it. -/
theorem follows_onControlChange (c : Channel) (n v : Data7) :
    Follows s c n v (exec (decode (.evt (.cv24 (statusByte 0xB#4 c) (n.setWidth 8) (v.setWidth 8)))) s)
      (onControlChange (s.nrpn.get c) c n v) := by
  by_cases h99 : n = 99#7
  · subst h99
    exact follows_of_write hw (exec_decode_cc99 c _) (fun f => by rw [data7_setWidth]; rfl) nofun
  by_cases h98 : n = 98#7
  · subst h98
    exact follows_of_write hw (exec_decode_cc98 c _) (fun f => by rw [data7_setWidth]; rfl) nofun
  by_cases h6 : n = 6#7
  · subst h6
    exact follows_of_write hw (exec_decode_cc6 c _) (fun f => by rw [data7_setWidth]; rfl)
      fun f e => writeValueMsb_status_of_event f c _
  by_cases h38 : n = 38#7
  · subst h38
    exact follows_of_write hw (exec_decode_cc38 c _) (fun f => by rw [data7_setWidth]; rfl)
      fun f e => writeValueLsb_status_of_event f c _
  exact follows_of_other hw ⟨h99, h98, h6, h38⟩

end

/-- Settles O23: the operation ends by the assembler's answer, which its clauses read off case by case. -/
theorem controlChangesAreRoutedByTheAssemblersAnswer :
    Obligations.ControlChangesAreRoutedByTheAssemblersAnswer := by
  intro c n v s hw
  rw [or_channel_eq_statusByte]
  obtain ⟨t, d, hexec, hbank, hwired, hcfg, hout⟩ := follows_onControlChange hw c n v
  refine ⟨t, d, hexec, hbank, hwired, hcfg, onControlChange_eq_notNrpn_iff .., fun h => ?_, fun st h => ?_,
    fun e h => ?_⟩
  · rw [hout, h]; rfl
  · rw [hout, h]; rfl
  · rw [hout, h]; rfl

end Sys2Proof.Machine

/-! The control-port operations that are not the codec's: BEGIN (R200, R201) and the refused control word (R205). -/

namespace Sys2Proof.Machine
open Sys2Proof.Claims

theorem decode_begin : decode (.ctl 0x01000000#32 []) = .begin := by decide

/-- A word of BEGIN with a capacity, or with bytes behind it, is refused (R200). -/
theorem decode_begin_with_operands {w : CtlWord} {cap : Capacity} {I : List Byte}
    (hword : w.toNat = 0x01000000 + cap.toNat) (hoperands : cap ≠ 0#16 ∨ I ≠ []) :
    decode (.ctl w I) = .unsupportedCtl w I := by
  have hcap := cap.isLt
  rw [Ne, ← BitVec.toNat_inj, BitVec.toNat_ofNat] at hoperands
  refine decodeCtl_of_reserved ((ctlReserved_iff w I).mpr (.inr (.inr (.inr ⟨by omega, ?_⟩))))
  exact hoperands.imp_left fun hne => by omega

/-- Settles O41: the word is BEGIN's own encoding, and the state given is what the meaning leaves. -/
theorem beginWiresTheBlock : Obligations.BeginWiresTheBlock :=
  ⟨decode_begin, fun _ _ _ => decode_begin_with_operands, fun _ => rfl⟩

/-- Settles O43: the meaning reads no operand and no state, and the three words decode to it by computation. -/
theorem reservedControlWordIsRefused : Obligations.ReservedControlWordIsRefused :=
  ⟨fun _ _ _ => rfl, by decide, by decide, by decide⟩

/-! ## Any number of BEGINs (R201) -/

/-- `t` is wired and has the bank, the configuration and the events of `s`. -/
def WiredFrom (s t : State) : Prop :=
  t.wired = true ∧ t.nrpn = s.nrpn ∧ t.cfg = s.cfg ∧ t.appEvents = s.appEvents

/-- The state that a BEGIN leaves, with `rest` still presented. -/
def begun (s : State) (rest : List Input) : State := State.endCtl { s.accept rest with wired := true } .ok []

theorem exec_decode_begin (s : State) (rest : List Input) :
    exec (decode (.ctl 0x01000000#32 [])) (s.accept rest) = .next (begun s rest) := by
  rw [decode_begin]; rfl

theorem begun_wiredFrom (s : State) (rest : List Input) : WiredFrom s (begun s rest) :=
  ⟨rfl, rfl, rfl, State.appEvents_endCtl ..⟩

/-- A run of BEGINs. -/
def begins (n : Nat) : List Input := List.replicate n (.op (.ctl 0x01000000#32 []))

/-- One BEGIN or more leave a wired state with the bank, the configuration and the events of the state before. -/
theorem exists_after_begins (s : State) (n : Nat) : ∃ t, After s (begins (n + 1)) t ∧ WiredFrom s t := by
  induction n generalizing s with
  | zero => exact ⟨_, after_op_cons (exec_decode_begin s []) rfl (after_nil rfl), begun_wiredFrom s []⟩
  | succ n ih =>
    obtain ⟨t, hrun, hw, hbank, hcfg, hevents⟩ := ih (begun s (begins (n + 1)))
    obtain ⟨_, hbank', hcfg', hevents'⟩ := begun_wiredFrom s (begins (n + 1))
    exact ⟨t, after_op_cons (exec_decode_begin s _) rfl hrun, hw, hbank.trans hbank', hcfg.trans hcfg',
      hevents.trans hevents'⟩

/-- Settles O42: one BEGIN and any number of them leave a wired state with what the state before held. -/
theorem beginIsIdempotent : Obligations.BeginIsIdempotent := by
  intro s n
  obtain ⟨t, hrun, hw, hbank, hcfg, hevents⟩ := exists_after_begins s n
  obtain ⟨u, hrun', hw', hbank', hcfg', _⟩ := exists_after_begins s 0
  exact ⟨t, u, hrun, hrun', hw, hw.trans hw'.symm, hbank, hbank.trans hbank'.symm, hcfg.trans hcfg'.symm, hevents⟩

end Sys2Proof.Machine

/-! The free draws of diagnostic delivery (R208) influence no observation (R281): a step keeps two states alike that
differ in nothing but what the draws decide. -/

namespace Sys2Proof.Machine
open Sys2Proof.Claims

/-- The states have the same observation, configuration, inputs left and operation index. -/
structure AlikeButDraws (s₁ s₂ : State) : Prop where
  observe : s₁.observe = s₂.observe
  cfg : s₁.cfg = s₂.cfg
  inputs : s₁.inputs = s₂.inputs
  opIndex : s₁.opIndex = s₂.opIndex

theorem State.observe_applyReset (s : State) : s.applyReset.observe =
    { s.observe with wired := false, nrpn := NrpnBank.idle s.cfg.nrpnPerChannel } := rfl

/-! ## What each update keeps -/

section
variable {s₁ s₂ : State} (h : AlikeButDraws s₁ s₂)
include h

theorem AlikeButDraws.wired : s₁.wired = s₂.wired := congrArg Observation.wired h.observe

theorem AlikeButDraws.nrpn : s₁.nrpn = s₂.nrpn := congrArg Observation.nrpn h.observe

theorem AlikeButDraws.accept (rest : List Input) : AlikeButDraws (s₁.accept rest) (s₂.accept rest) :=
  ⟨h.observe, h.cfg, rfl, congrArg (· + 1) h.opIndex⟩

theorem AlikeButDraws.setNrpn (bank : NrpnBank) :
    AlikeButDraws { s₁ with nrpn := bank } { s₂ with nrpn := bank } :=
  ⟨congrArg (fun o : Observation => { o with nrpn := bank }) h.observe, h.cfg, h.inputs, h.opIndex⟩

theorem AlikeButDraws.setWired (w : Bool) : AlikeButDraws { s₁ with wired := w } { s₂ with wired := w } :=
  ⟨congrArg (fun o : Observation => { o with wired := w }) h.observe, h.cfg, h.inputs, h.opIndex⟩

theorem AlikeButDraws.endEvt (st : Status) (ev : Option AppEvent) (r : Option DiagRecord) :
    AlikeButDraws (s₁.endEvt st ev r) (s₂.endEvt st ev r) :=
  ⟨by rw [State.observe_endEvt, State.observe_endEvt, h.observe], by simp [h.cfg], by simp [h.inputs],
    by simp [h.opIndex]⟩

theorem AlikeButDraws.endCtl (st : Status) (out : List Byte) :
    AlikeButDraws (s₁.endCtl st out) (s₂.endCtl st out) :=
  ⟨by rw [State.observe_endCtl, State.observe_endCtl, h.observe], h.cfg, h.inputs, h.opIndex⟩

theorem AlikeButDraws.setInputs (rest : List Input) :
    AlikeButDraws { s₁ with inputs := rest } { s₂ with inputs := rest } :=
  ⟨h.observe, h.cfg, rfl, h.opIndex⟩

theorem AlikeButDraws.applyReset : AlikeButDraws s₁.applyReset s₂.applyReset :=
  ⟨by rw [State.observe_applyReset, State.observe_applyReset, h.observe, h.cfg], h.cfg, h.inputs, rfl⟩

/-! ## Operations, steps and runs -/

/-- An operation goes on from both states and keeps them alike: no answer reads a draw (R34). -/
theorem AlikeButDraws.exec (i : Instr) :
    ∃ t₁ t₂, Machine.exec i s₁ = .next t₁ ∧ Machine.exec i s₂ = .next t₂ ∧ AlikeButDraws t₁ t₂ := by
  cases hport : i.onEvtPort
  case true =>
    obtain ⟨st, ev, r, bank, hexec⟩ := exec_evtPort hport s₂
    exact ⟨_, _, hexec s₁ h.wired h.nrpn h.cfg, hexec s₂ rfl rfl rfl, (h.setNrpn bank).endEvt st ev r⟩
  case false =>
    obtain ⟨st, out, hexec⟩ := exec_ctl hport
    refine ⟨_, _, hexec s₁, hexec s₂, ?_⟩
    rw [h.wired]
    exact (h.setWired _).endCtl st out

theorem AlikeButDraws.step :
    ∃ t₁ t₂, Machine.step s₁ = .next t₁ ∧ Machine.step s₂ = .next t₂ ∧ AlikeButDraws t₁ t₂ := by
  match hinputs : s₂.inputs with
  | [] => exact ⟨s₁, s₂, by simp [Machine.step, h.inputs, hinputs], by simp [Machine.step, hinputs], h⟩
  | .reset :: rest => exact ⟨_, _, step_reset (h.inputs.trans hinputs), step_reset hinputs, (h.setInputs rest).applyReset⟩
  | .op p :: rest =>
    obtain ⟨t₁, t₂, h₁, h₂, halike⟩ := (h.accept rest).exec (decode p)
    exact ⟨t₁, t₂, step_op (h.inputs.trans hinputs) h₁, step_op hinputs h₂, halike⟩

theorem AlikeButDraws.run (k : Nat) : ∃ t₁ t₂, Host.Core.run Sys2Proof.core k s₁ = .next t₁ ∧
    Host.Core.run Sys2Proof.core k s₂ = .next t₂ ∧ AlikeButDraws t₁ t₂ := by
  induction k generalizing s₁ s₂ with
  | zero => exact ⟨s₁, s₂, run_zero s₁, run_zero s₂, h⟩
  | succ k ih =>
    obtain ⟨u₁, u₂, hstep₁, hstep₂, halike⟩ := h.step
    obtain ⟨t₁, t₂, hrun₁, hrun₂, halike'⟩ := ih halike
    exact ⟨t₁, t₂, (run_succ k hstep₁).trans hrun₁, (run_succ k hstep₂).trans hrun₂, halike'⟩

end

/-- Settles O56: two states that differ in the next draw are alike, and every run keeps them so. -/
theorem diagnosticDeliveryInfluencesNothing : Obligations.DiagnosticDeliveryInfluencesNothing := by
  intro s n k
  have hstart : AlikeButDraws s { s with diagDraws := n } := ⟨rfl, rfl, rfl, rfl⟩
  obtain ⟨t₁, t₂, hrun₁, hrun₂, hobserve, hcfg, hinputs, hindex⟩ := hstart.run k
  exact ⟨t₁, t₂, hrun₁, hrun₂, hobserve, hcfg, hinputs, hindex⟩

end Sys2Proof.Machine

/-! Exceptions (R220 to R222) and runs that complete (R235, R236): no operation and no step stops, a run takes all that is
presented, an error status leaves the state alone, and the codes of the statuses. -/

namespace Sys2Proof.Machine
open Sys2Proof.Claims

/-! ## Every operation and every step goes on (R220, R235) -/

/-- Every operation answers a next state, takes nothing from what is presented, and adds one output record, on its own
port. -/
theorem exec_completes (i : Instr) (s : State) : ∃ t o, exec i s = .next t ∧ t.inputs = s.inputs ∧
    t.outputs = s.outputs ++ [o] ∧ onEvt o = i.onEvtPort := by
  cases hport : i.onEvtPort
  case true =>
    obtain ⟨st, ev, r, bank, hexec⟩ := exec_evtPort hport s
    exact ⟨_, _, hexec s rfl rfl rfl, State.endEvt_inputs .., State.endEvt_outputs .., rfl⟩
  case false =>
    obtain ⟨st, out, hexec⟩ := exec_ctl hport
    exact ⟨_, .ctl st out, hexec s, rfl, rfl, rfl⟩

theorem step_idle {s : State} (hs : s.inputs = []) : step s = .next s := by
  simp only [step, hs]

theorem exists_step_next (s : State) : ∃ t, step s = .next t := by
  match hinputs : s.inputs with
  | [] => exact ⟨s, step_idle hinputs⟩
  | .reset :: rest => exact ⟨_, step_reset hinputs⟩
  | .op p :: rest =>
    obtain ⟨t, _, hexec, _⟩ := exec_completes (decode p) (s.accept rest)
    exact ⟨t, step_op hinputs hexec⟩

/-- Settles O48: every operation completes, and so every step goes on. -/
theorem blockNeverStops : Obligations.BlockNeverStops := by
  refine ⟨fun i s => ?_, exists_step_next⟩
  obtain ⟨t, o, hexec, _, hout, hport⟩ := exec_completes i s
  exact ⟨o, ⟨t, hexec, hout⟩, hport⟩

/-- Settles O45: the step of an empty presentation is the idle one. -/
theorem idleBlockKeepsItsState : Obligations.IdleBlockKeepsItsState :=
  fun _ => step_idle

/-! ## A run takes all that is presented (R236) -/

theorem portsOf_op_cons (p : PortOp) (rest : List Input) :
    portsOf (.op p :: rest) = (decode p).onEvtPort :: portsOf rest := by
  cases p with
  | evt m => rw [onEvtPort_decode_evt]; rfl
  | ctl w I => rw [onEvtPort_decode_ctl]; rfl

/-- A run whose first input is RESET continues from the reset state. -/
theorem after_reset_cons {s u : State} {rest : List Input} (h : After s.applyReset rest u) :
    After s (.reset :: rest) u :=
  (run_succ rest.length (step_reset (rest := rest) rfl)).trans h

/-- A run of any inputs takes them all, and adds one output record for each operation, on its port. -/
theorem exists_after_all (run : List Input) (s : State) : ∃ t new, After s run t ∧ t.inputs = [] ∧
    t.outputs = s.outputs ++ new ∧ new.map onEvt = portsOf run := by
  induction run generalizing s with
  | nil => exact ⟨{ s with inputs := [] }, [], run_zero _, rfl, (List.append_nil _).symm, rfl⟩
  | cons input rest ih =>
    cases input with
    | reset =>
      obtain ⟨t, new, hrun, htaken, hout, hports⟩ := ih s.applyReset
      exact ⟨t, new, after_reset_cons hrun, htaken, hout, hports⟩
    | op p =>
      obtain ⟨u, o, hexec, hinputs, hout, hport⟩ := exec_completes (decode p) (s.accept rest)
      obtain ⟨t, new, hrun, htaken, hout', hports⟩ := ih u
      refine ⟨t, o :: new, after_op_cons hexec hinputs hrun, htaken, ?_, ?_⟩
      · rw [hout', hout, State.accept_outputs, List.append_assoc, List.singleton_append]
      · rw [List.map_cons, hport, hports, portsOf_op_cons]

/-- Settles O49: by induction on what is presented, operation by operation. -/
theorem everyPresentedOperationCompletes : Obligations.EveryPresentedOperationCompletes :=
  fun s => exists_after_all s.inputs s

/-! ## An error status leaves the state alone (R222) -/

/-- A status with which R222 lets no operation change the state. -/
def Status.isError (st : Status) : Prop := st ≠ .ok ∧ st ≠ .nrpnPending ∧ st ≠ .nrpnIgnored

/-- An event goes with `OK`, or is the own event of `UNRECOGNIZED_SYSEX_COMMAND`. -/
theorem status_of_event {st : Status} {e : AppEvent} (hfit : statusFitsEvent st (some e) = true) :
    st = .ok ∨ st = .unrecognizedSysexCommand ∧ ∃ cmd, e = .unrecognizedSysExCommand cmd := by
  cases st with
  | ok => exact .inl rfl
  | unrecognizedSysexCommand =>
    cases e with
    | unrecognizedSysExCommand cmd => exact .inr ⟨rfl, cmd, rfl⟩
    | _ => cases hfit
  | _ => cases hfit

/-- The event that goes with an error status: none, but for the one status that has its own. -/
theorem event_of_isError {st : Status} {ev : Option AppEvent} (hst : st.isError)
    (hfit : statusFitsEvent st ev = true) : (st ≠ .unrecognizedSysexCommand → ev = none) ∧
      (st = .unrecognizedSysexCommand → ∃ cmd, ev = some (.unrecognizedSysExCommand cmd)) := by
  cases ev with
  | none => exact ⟨fun _ => rfl, by rintro rfl; cases hfit⟩
  | some e =>
    obtain hok | ⟨hown, cmd, rfl⟩ := status_of_event hfit
    · exact absurd hok hst.1
    · exact ⟨fun hne => absurd hown hne, fun _ => ⟨cmd, rfl⟩⟩

/-- How R222 lets an event-port operation answer: it writes nothing and its event goes with its status, or it writes a
set of the bank and its status is no error. -/
def WritesUnlessError (s : State) (answer : Result) : Prop :=
  (∃ st ev r, answer = .next (s.endEvt st ev r) ∧ statusFitsEvent st ev = true) ∨
  ∃ op c S d1 d2 r, answer = .next (s.endNrpn op c S d1 d2 r) ∧ ¬ r.status.isError

section
variable (s : State)

theorem emitCv24_writesUnlessError (op : EvtOpName) (S d1 d2 : Byte) {ev : AppEvent}
    (hev : statusFitsEvent .ok (some ev) = true) : WritesUnlessError s (emitCv24 op S d1 d2 ev s) := by
  obtain ⟨_, e⟩ | ⟨_, _, e⟩ | ⟨_, _, e⟩ := emitCv24_cases op S d1 d2 ev s
  · exact .inl ⟨_, _, _, e, rfl⟩
  · exact .inl ⟨_, _, _, e, rfl⟩
  · exact .inl ⟨_, _, _, e, hev⟩

theorem nrpnCv24_writesUnlessError (op : EvtOpName) (c : Channel) (d1 d2 : Byte) {write : NrpnFields → NrpnResult}
    (hwrite : ∀ f, ¬ (write f).status.isError) : WritesUnlessError s (nrpnCv24 op c d1 d2 write s) := by
  obtain ⟨_, e⟩ | ⟨_, _, e⟩ | ⟨_, _, e⟩ := nrpnCv24_cases op c d1 d2 write s
  · exact .inl ⟨_, _, _, e, rfl⟩
  · exact .inl ⟨_, _, _, e, rfl⟩
  · exact .inr ⟨_, _, _, _, _, _, e, hwrite _⟩

theorem execSysex_writesUnlessError (F : List Byte) : WritesUnlessError s (execSysex F s) := by
  obtain ⟨_, e⟩ | ⟨_, st, hst, e⟩ | ⟨_, _, b, _, ⟨_, e⟩ | ⟨_, e⟩ | ⟨_, payload, _, e⟩⟩ := execSysex_cases F s
  · exact .inl ⟨_, _, _, e, rfl⟩
  · exact .inl ⟨_, _, _, e, by obtain rfl | rfl | rfl | rfl := hst <;> rfl⟩
  · exact .inl ⟨_, _, _, e, rfl⟩
  · exact .inl ⟨_, _, _, e, rfl⟩
  · exact .inl ⟨_, _, _, e, rfl⟩

theorem execUnsupported_writesUnlessError (S d1 d2 : Byte) : WritesUnlessError s (execUnsupported S d1 d2 s) := by
  cases hw : s.wired
  · exact .inl ⟨_, _, _, execUnsupported_of_unwired S d1 d2 hw, rfl⟩
  · exact .inl ⟨_, _, _, execUnsupported_of_wired S d1 d2 hw, rfl⟩

theorem writeValueMsb_not_isError (f : NrpnFields) (c : Channel) (v : Data7) :
    ¬ (writeValueMsb f c v).status.isError := by
  obtain ⟨_, e⟩ | ⟨_, _, _, _, _, e⟩ | ⟨_, _, _, _, e⟩ := writeValueMsb_cases f c v <;> simp [e, Status.isError]

theorem writeValueLsb_not_isError (f : NrpnFields) (c : Channel) (v : Data7) :
    ¬ (writeValueLsb f c v).status.isError := by
  obtain ⟨_, e⟩ | ⟨_, _, _, _, _, e⟩ | ⟨_, _, _, _, e⟩ := writeValueLsb_cases f c v <;> simp [e, Status.isError]

theorem exec_writesUnlessError {i : Instr} (hport : i.onEvtPort = true) : WritesUnlessError s (exec i s) := by
  cases i with
  | noteOff c d1 d2 => exact emitCv24_writesUnlessError s _ _ _ _ rfl
  | noteOnVel0 c d1 => exact emitCv24_writesUnlessError s _ _ _ _ rfl
  | noteOn c d1 d2 => exact emitCv24_writesUnlessError s _ _ _ _ rfl
  | ccGeneric c d1 d2 => exact emitCv24_writesUnlessError s _ _ _ _ rfl
  | ccNrpnIdMsb c d2 =>
    exact nrpnCv24_writesUnlessError s _ c _ d2 (write := (writeIdMsb · _)) fun _ ⟨_, hpending, _⟩ => hpending rfl
  | ccNrpnIdLsb c d2 =>
    exact nrpnCv24_writesUnlessError s _ c _ d2 (write := (writeIdLsb · _)) fun _ ⟨_, hpending, _⟩ => hpending rfl
  | ccDataEntryMsb c d2 => exact nrpnCv24_writesUnlessError s _ c _ d2 (writeValueMsb_not_isError · c _)
  | ccDataEntryLsb c d2 => exact nrpnCv24_writesUnlessError s _ c _ d2 (writeValueLsb_not_isError · c _)
  | sysex F => exact execSysex_writesUnlessError s F
  | unsupported S d1 d2 => exact execUnsupported_writesUnlessError s S d1 d2
  | begin | codecDecode | codecEncode | unsupportedCtl => cases hport

theorem endEvt_eq_setOutputs (st : Status) (ev : Option AppEvent) (r : Option DiagRecord) :
    s.endEvt st ev r = { s with outputs := (s.endEvt st ev r).outputs, diagDraws := (s.endEvt st ev r).diagDraws } := by
  cases r <;> rfl

/-- A control-port operation other than BEGIN writes nothing, and a response that is not `OK` has no bytes. -/
theorem exec_ctl_bytes {i : Instr} (hport : i.onEvtPort = false) (hne : i ≠ .begin) :
    ∃ st out, exec i s = .next (s.endCtl st out) ∧ (st ≠ .ok → out = []) := by
  have respond : ∀ r : CodecResult, ∃ st out, s.respond r = s.endCtl st out ∧ (st ≠ .ok → out = []) := by
    intro r
    cases r with
    | ok out => exact ⟨_, _, rfl, fun h => absurd rfl h⟩
    | err st => exact ⟨_, _, rfl, fun _ => rfl⟩
  cases i with
  | begin => exact absurd rfl hne
  | codecDecode cap I =>
    obtain ⟨st, out, h, hout⟩ := respond (decode7 I (capValue cap))
    exact ⟨st, out, congrArg _ h, hout⟩
  | codecEncode cap I =>
    obtain ⟨st, out, h, hout⟩ := respond (encode7 I (capValue cap))
    exact ⟨st, out, congrArg _ h, hout⟩
  | unsupportedCtl w I => exact ⟨_, _, rfl, fun _ => rfl⟩
  | _ => cases hport

end

/-- Settles O55: an operation that writes the bank ends with no error status, BEGIN responds `OK`, and every other
operation only presents its output. -/
theorem errorStatusesLeaveTheStateAlone : Obligations.ErrorStatusesLeaveTheStateAlone := by
  intro i s t hexec
  cases hport : i.onEvtPort
  case true =>
    obtain ⟨st, ev, r, e, hfit⟩ | ⟨op, c, S, d1, d2, r, e, hwrite⟩ := exec_writesUnlessError s hport <;>
      cases e.symm.trans hexec
    · refine ⟨fun st' ev' d hout hok hpending hignored => ?_, fun st' out hout => by simp at hout⟩
      obtain ⟨rfl, rfl, _⟩ : st = st' ∧ ev = ev' ∧ _ = d := by simpa using hout
      exact ⟨endEvt_eq_setOutputs s st ev r, event_of_isError ⟨hok, hpending, hignored⟩ hfit⟩
    · refine ⟨fun st' ev' d hout hok hpending hignored => ?_, fun st' out hout => by simp at hout⟩
      obtain ⟨rfl, _⟩ : r.status = st' ∧ r.event = ev' ∧ _ = d := by simpa using hout
      exact absurd ⟨hok, hpending, hignored⟩ hwrite
  case false =>
    by_cases hbegin : i = .begin
    · subst hbegin
      cases hexec
      refine ⟨fun st ev d hout => by simp at hout, fun st out hout hok => ?_⟩
      obtain ⟨rfl, _⟩ : .ok = st ∧ [] = out := by simpa using hout
      exact absurd rfl hok
    · obtain ⟨st, out, e, hbytes⟩ := exec_ctl_bytes s hport hbegin
      cases e.symm.trans hexec
      refine ⟨fun st ev d hout => by simp at hout, fun st' out' hout hok => ?_⟩
      obtain ⟨rfl, rfl⟩ : st = st' ∧ out = out' := by simpa using hout
      exact ⟨rfl, hbytes hok⟩

/-! ## The status codes (R221) -/

/-- The statuses in the order of the table of R221. -/
def Status.table : List Status :=
  [.ok, .nrpnPending, .nrpnIgnored, .malformedByte, .bufferOverflow, .unrecognizedSysexCommand, .sysexTooShort,
    .sysexTooLong, .sysexForeign, .unsupportedEvent, .notReady, .nrpnDiscarded]

/-- The code of a status is its place in the table, from which the status is read back. -/
theorem Status.getElem?_table_code (s : Status) : Status.table[s.code.toNat]? = some s := by
  cases s <;> rfl

theorem Status.code_injective : Function.Injective Status.code := by
  intro s t hcode
  have hs := s.getElem?_table_code
  rw [hcode, t.getElem?_table_code] at hs
  exact (Option.some.inj hs).symm

/-- Settles O58: a code is a place among the twelve of the table, so it tells the status and is at most `0x0B`. -/
theorem statusCodesAreTheTables : Obligations.StatusCodesAreTheTables := by
  refine ⟨by decide, fun _ _ hcode => Status.code_injective hcode, fun s => ?_⟩
  obtain ⟨hplace, _⟩ := List.getElem?_eq_some_iff.mp s.getElem?_table_code
  exact Nat.le_of_lt_succ hplace

end Sys2Proof.Machine

/-! Before BEGIN (R171, R275): whatever is presented to a block that is not wired, no event comes out, and the bank is
left alone but for RESET. -/

namespace Sys2Proof.Machine
open Sys2Proof.Claims

@[simp] theorem State.evtStatuses_endCtl (s : State) (st : Status) (out : List Byte) :
    (s.endCtl st out).evtStatuses = s.evtStatuses :=
  congrArg Observation.statuses (State.observe_endCtl s st out)

/-- `t` is not wired and has the configuration and the events of `s`, and every event-port status since `s` was
`NOT_READY`. -/
def LostSince (s t : State) : Prop :=
  t.wired = false ∧ t.cfg = s.cfg ∧ t.appEvents = s.appEvents ∧
    ∃ n, t.evtStatuses = s.evtStatuses ++ List.replicate n .notReady

theorem LostSince.trans {s t u : State} (hst : LostSince s t) (htu : LostSince t u) : LostSince s u := by
  obtain ⟨_, hcfg, hevents, n, hstatuses⟩ := hst
  obtain ⟨hw, hcfg', hevents', m, hstatuses'⟩ := htu
  refine ⟨hw, hcfg'.trans hcfg, hevents'.trans hevents, n + m, ?_⟩
  rw [hstatuses', hstatuses, List.append_assoc, List.replicate_append_replicate]

theorem lostSince_applyReset (s : State) : LostSince s s.applyReset :=
  ⟨rfl, rfl, rfl, 0, (List.append_nil _).symm⟩

/-- Before BEGIN an operation other than BEGIN is lost and leaves the bank alone: the event port turns it away, and the
control port only responds. -/
theorem exec_lostSince {i : Instr} (hne : i ≠ .begin) {s : State} (hw : s.wired = false) :
    ∃ t, exec i s = .next t ∧ t.inputs = s.inputs ∧ t.nrpn = s.nrpn ∧ LostSince s t := by
  cases hport : i.onEvtPort
  case true =>
    exact ⟨_, exec_of_unwired hport hw, rfl, rfl, hw, rfl,
      (State.appEvents_endEvt s .notReady none none).trans (List.append_nil _), 1,
      State.evtStatuses_endEvt s .notReady none none⟩
  case false =>
    obtain ⟨st, out, hexec⟩ := exec_ctl_of_ne_begin hport hne
    exact ⟨_, hexec s, rfl, rfl, hw, rfl, State.appEvents_endCtl .., 0, by simp⟩

/-- A run without BEGIN is lost on a block that is not wired, and only a RESET in it touches the bank. -/
theorem exists_after_lostSince (run : List Input) {s : State} (hw : s.wired = false)
    (hbegin : ∀ p, Input.op p ∈ run → decode p ≠ .begin) :
    ∃ t, After s run t ∧ LostSince s t ∧ (Input.reset ∉ run → t.nrpn = s.nrpn) ∧
      (Input.reset ∈ run → t.nrpn = NrpnBank.idle s.cfg.nrpnPerChannel) := by
  induction run generalizing s with
  | nil =>
    exact ⟨{ s with inputs := [] }, run_zero _, ⟨hw, rfl, rfl, 0, (List.append_nil _).symm⟩, fun _ => rfl, nofun⟩
  | cons input rest ih =>
    have hrest : ∀ p, Input.op p ∈ rest → decode p ≠ .begin := fun p hp => hbegin p (List.mem_cons_of_mem _ hp)
    cases input with
    | reset =>
      obtain ⟨t, hrun, hlost, hkept, hidle⟩ := ih (s := s.applyReset) rfl hrest
      refine ⟨t, after_reset_cons hrun, (lostSince_applyReset s).trans hlost, fun h => absurd List.mem_cons_self h,
        fun _ => ?_⟩
      by_cases hreset : Input.reset ∈ rest
      · exact hidle hreset
      · exact hkept hreset
    | op p =>
      obtain ⟨u, hexec, hinputs, hbank, hlost⟩ := exec_lostSince (hbegin p List.mem_cons_self) (s := s.accept rest) hw
      have ⟨hwu, hcfg, _⟩ := hlost
      obtain ⟨t, hrun, hlost', hkept, hidle⟩ := ih hwu hrest
      refine ⟨t, after_op_cons hexec hinputs hrun, LostSince.trans hlost hlost', fun hreset => ?_, fun hreset => ?_⟩
      · exact (hkept fun hmem => hreset (List.mem_cons_of_mem _ hmem)).trans hbank
      · rw [hidle (by simpa using hreset), hcfg, State.accept_cfg]

/-- Settles O53: by induction on the run, operation by operation. -/
theorem eventsBeforeBeginAreLost : Obligations.EventsBeforeBeginAreLost := by
  intro s run hw hbegin
  obtain ⟨t, hrun, ⟨hwt, _, hevents, n, hstatuses⟩, hkept, hidle⟩ := exists_after_lostSince run hw hbegin
  exact ⟨t, n, hrun, hwt, hevents, hstatuses, hkept, hidle⟩

end Sys2Proof.Machine

/-! Identifiers persist (R273): only an identifier write and RESET touch them, so that data entry arriving later, RPN
data entry included (R274), meets the identifier that was set before. -/

namespace Sys2Proof.Machine
open Sys2Proof.Claims

/-! ## What keeps an identifier -/

/-- The identifier fields of a set. -/
def NrpnFields.identifier (f : NrpnFields) : Option Data7 × Option Data7 := (f.identifierMsb, f.identifierLsb)

theorem writeValueMsb_identifier (f : NrpnFields) (c : Channel) (v : Data7) :
    (writeValueMsb f c v).fields.identifier = f.identifier := by
  obtain ⟨_, e⟩ | ⟨_, _, _, _, rfl, e⟩ | ⟨_, _, _, rfl, e⟩ := writeValueMsb_cases f c v <;> rw [e] <;> rfl

theorem writeValueLsb_identifier (f : NrpnFields) (c : Channel) (v : Data7) :
    (writeValueLsb f c v).fields.identifier = f.identifier := by
  obtain ⟨_, e⟩ | ⟨_, _, _, _, rfl, e⟩ | ⟨_, _, _, rfl, e⟩ := writeValueLsb_cases f c v <;> rw [e] <;> rfl

/-- A write that keeps the identifier of its own channel keeps that of every channel, in both shapes of the bank. -/
theorem NrpnBank.identifier_get_set {b : NrpnBank} {c : Channel} {f : NrpnFields}
    (hf : f.identifier = (b.get c).identifier) (c' : Channel) :
    ((b.set c f).get c').identifier = (b.get c').identifier := by
  cases b with
  | shared g => exact hf
  | perChannel sets =>
    by_cases hc : c' = c
    · rw [hc, NrpnBank.get_set_self, hf]
    · rw [NrpnBank.get_set_of_ne f rfl hc]

/-- `t` has the identifiers of `s`, and is wired if `s` is. -/
def IdentifiersKept (s t : State) : Prop :=
  (s.wired = true → t.wired = true) ∧ ∀ c, (t.nrpn.get c).identifier = (s.nrpn.get c).identifier

theorem IdentifiersKept.trans {s t u : State} (hst : IdentifiersKept s t) (htu : IdentifiersKept t u) :
    IdentifiersKept s u := by
  obtain ⟨hw, hid⟩ := hst
  obtain ⟨hw', hid'⟩ := htu
  exact ⟨fun h => hw' (hw h), fun c => (hid' c).trans (hid c)⟩

theorem exec_stays_wired {i : Instr} {s t : State} (hexec : exec i s = .next t) (hw : s.wired = true) :
    t.wired = true := by
  obtain ⟨_, hother, hbegin, _⟩ := exec_writes hexec
  by_cases hi : i = .begin
  · exact hbegin hi
  · exact (hother hi).trans hw

theorem nrpnCv24_identifier {op : EvtOpName} {c : Channel} {d1 d2 : Byte} {write : NrpnFields → NrpnResult}
    {s t : State} (hwrite : ∀ f, (write f).fields.identifier = f.identifier)
    (hexec : nrpnCv24 op c d1 d2 write s = .next t) (c' : Channel) :
    (t.nrpn.get c').identifier = (s.nrpn.get c').identifier := by
  obtain ⟨_, e⟩ | ⟨_, _, e⟩ | ⟨_, _, e⟩ := nrpnCv24_cases op c d1 d2 write s <;> cases e.symm.trans hexec
  · rw [State.endEvt_nrpn]
  · rw [State.endEvt_nrpn]
  · exact NrpnBank.identifier_get_set (hwrite _) c'

/-- An operation other than the two identifier writes keeps every identifier: it is a value write, or it leaves the bank
alone. -/
theorem exec_identifiersKept {p : PortOp} (hp : keepsIdentifiers (.op p) = true) {s t : State}
    (hexec : exec (decode p) s = .next t) : IdentifiersKept s t := by
  refine ⟨exec_stays_wired hexec, fun c' => ?_⟩
  obtain ⟨_, _, _, hbank, _⟩ := exec_writes hexec
  rw [keepsIdentifiers] at hp
  cases hi : decode p <;> rw [hi] at hp hexec hbank
  case ccNrpnIdMsb | ccNrpnIdLsb => cases hp
  case ccDataEntryMsb c d2 => exact nrpnCv24_identifier (writeValueMsb_identifier · c _) hexec c'
  case ccDataEntryLsb c d2 => exact nrpnCv24_identifier (writeValueLsb_identifier · c _) hexec c'
  all_goals rw [hbank rfl]

theorem exists_after_identifiersKept {run : List Input} (hrun : run.all keepsIdentifiers = true) (s : State) :
    ∃ t, After s run t ∧ IdentifiersKept s t := by
  induction run generalizing s with
  | nil => exact ⟨{ s with inputs := [] }, run_zero _, id, fun _ => rfl⟩
  | cons input rest ih =>
    obtain ⟨hhead, htail⟩ := Bool.and_eq_true_iff.mp hrun
    cases input with
    | reset => cases hhead
    | op p =>
      obtain ⟨u, _, hexec, hinputs, _⟩ := exec_completes (decode p) (s.accept rest)
      obtain ⟨t, hafter, hkept⟩ := ih htail u
      exact ⟨t, after_op_cons hexec hinputs hafter, (exec_identifiersKept hhead hexec).trans hkept⟩

/-! ## A value pair -/

/-- The events of the value pair `x`, `y` on channel `c` whose set is `f`: CC 6, then CC 38 on the set it leaves. -/
def valuePairEvents (f : NrpnFields) (c : Channel) (x y : Data7) : List AppEvent :=
  (writeValueMsb f c x).event.toList ++ (writeValueLsb (writeValueMsb f c x).fields c y).event.toList

section
variable (c : Channel) (a b x y : Data7) (vm : Option Data7)

theorem valuePairEvents_of_no_lsb :
    valuePairEvents ⟨some a, some b, vm, none⟩ c x y = [nrpnEvent c a b x y] := by
  simp [valuePairEvents, writeValueMsb_stores, writeValueLsb_completes]

/-- A value LSB in flight completes with the first of the pair, and the second waits. -/
theorem valuePairEvents_of_lsb (vl : Data7) :
    valuePairEvents ⟨some a, some b, vm, some vl⟩ c x y = [nrpnEvent c a b x vl] := by
  simp [valuePairEvents, writeValueMsb_completes, writeValueLsb_stores]

/-- A value pair that meets a complete identifier emits one event with it, of the pair's value unless a value LSB was in
flight. -/
theorem valuePairEvents_of_identifier {f : NrpnFields} (hmsb : f.identifierMsb = some a)
    (hlsb : f.identifierLsb = some b) : ∃ v, valuePairEvents f c x y = [.nrpnParameterChange c (a ++ b) v] ∧
      (f.valueLsb = none → v = x ++ y) := by
  obtain ⟨_, _, vm, vl⟩ := f
  cases hmsb
  cases hlsb
  cases vl with
  | none => exact ⟨x ++ y, valuePairEvents_of_no_lsb c a b x y vm, fun _ => rfl⟩
  | some vl => exact ⟨x ++ vl, valuePairEvents_of_lsb c a b x y vm vl, nofun⟩

end

/-- On a wired block the two operations of a value pair add the pair's events. -/
theorem exists_after_valuePair {s : State} (hw : s.wired = true) (c : Channel) (x y : Data7) :
    ∃ t u, After s [cc c 6#8 x] t ∧ After t [cc c 38#8 y] u ∧
      u.appEvents = s.appEvents ++ valuePairEvents (s.nrpn.get c) c x y := by
  simp only [cc_eq_ccInput]
  refine ⟨_, _, after_nrpn_cons hw rfl (highByte_setWidth _) (exec_decode_cc6 c _) (after_nil rfl),
    after_nrpn_cons hw rfl (highByte_setWidth _) (exec_decode_cc38 c _) (after_nil rfl), ?_⟩
  simp [valuePairEvents]

/-- Settles O30: the run keeps the identifiers, and the value pair after it emits its one event with the identifier that
stands, whether or not a value LSB is in flight. -/
theorem identifiersPersist : Obligations.IdentifiersPersist := by
  intro s run hrun
  obtain ⟨t, hafter, hwired, hid⟩ := exists_after_identifiersKept hrun s
  refine ⟨⟨t, hafter, fun c => Prod.ext_iff.mp (hid c)⟩, fun c a b x y hw hmsb hlsb => ?_⟩
  obtain ⟨u, w, hx, hy, hevents⟩ := exists_after_valuePair (hwired hw) c x y
  obtain ⟨hmsb', hlsb'⟩ := Prod.ext_iff.mp (hid c)
  obtain ⟨v, hpair, hvalue⟩ := valuePairEvents_of_identifier c a b x y (hmsb'.trans hmsb) (hlsb'.trans hlsb)
  exact ⟨t, u, w, v, hafter, hx, hy, by rw [hevents, hpair, List.getLast?_concat], hvalue⟩

/-! ## RPN data entry (R274) -/

/-- A run on a wired block that begins with a generic Control Change continues from the event it forwards. -/
theorem after_ccGeneric_cons {s u : State} {c : Channel} {ctl val : Byte} {rest : List Input} (hw : s.wired = true)
    (hctl : ctl.toNat < 128) (hval : val.toNat < 128) (hother : nrpnController ctl = false)
    (h : After ((s.accept rest).endEvt .ok (some (.controlChange c (data7 ctl) (data7 val)))
      (some (cvRecord .ccGeneric (statusByte 0xB#4 c) ctl val .ok))) rest u) :
    After s (ccInput c ctl val :: rest) u := by
  have hwf : (Instr.ccGeneric c ctl val).wf = true := by rw [Instr.wf, hother]; rfl
  exact after_op_cons ((congrArg (exec · (s.accept rest)) (decode_encode hwf)).trans
    (emitCv24_of_low (s := s.accept rest) _ _ _ hw hctl hval)) (State.endEvt_inputs ..) h

/-- On a wired block the two RPN selects are forwarded, and the data entry behind them is a value pair. -/
theorem exists_after_rpnDataEntry {s : State} (hw : s.wired = true) (c : Channel) (m l x y : Data7) :
    ∃ t, After s [cc c 101#8 m, cc c 100#8 l, cc c 6#8 x, cc c 38#8 y] t ∧
      t.appEvents = s.appEvents ++
        ([.controlChange c 101#7 m, .controlChange c 100#7 l] ++ valuePairEvents (s.nrpn.get c) c x y) ∧
      t.evtStatuses = s.evtStatuses ++ [.ok, .ok, (writeValueMsb (s.nrpn.get c) c x).status,
        (writeValueLsb (writeValueMsb (s.nrpn.get c) c x).fields c y).status] := by
  simp only [cc_eq_ccInput]
  have h101 : data7 101#8 = 101#7 := rfl
  have h100 : data7 100#8 = 100#7 := rfl
  refine ⟨_, after_ccGeneric_cons hw (by decide) (toNat_setWidth_lt _) rfl <|
    after_ccGeneric_cons (by simpa using hw) (by decide) (toNat_setWidth_lt _) rfl <|
    after_nrpn_cons (by simpa using hw) rfl (highByte_setWidth _) (exec_decode_cc6 c _) <|
    after_nrpn_cons (by simpa using hw) rfl (highByte_setWidth _) (exec_decode_cc38 c _) <| after_nil rfl, ?_, ?_⟩
  · simp [valuePairEvents, h101, h100]
  · simp

/-- Settles O31: what the value pair emits depends on the set it meets. -/
theorem rpnDataEntryIsCaptured : Obligations.RpnDataEntryIsCaptured := by
  intro s c m l x y hw
  obtain ⟨t, hafter, hevents, hstatuses⟩ := exists_after_rpnDataEntry hw c m l x y
  refine ⟨fun a b vm hset => ⟨t, hafter, ?_⟩, fun a b vm vl hset => ⟨t, hafter, ?_⟩,
    fun hid => ⟨t, hafter, ?_, ?_⟩⟩
  · rw [hevents, hset, valuePairEvents_of_no_lsb]; rfl
  · rw [hevents, hset, valuePairEvents_of_lsb]; rfl
  · simp [hevents, valuePairEvents, writeValueMsb_ignores _ _ hid, writeValueLsb_ignores _ _ hid]
  · simp [hstatuses, writeValueMsb_ignores _ _ hid, writeValueLsb_ignores _ _ hid]

end Sys2Proof.Machine
